-- ==== Sys2Proof/Word.lean ====
section
/-! DEFINITION. The word types of the block: every value of it is unsigned (00_scope R12). -/

namespace Sys2Proof

/-- A register operand number or a sprite height: one hexit of the instruction word (R81). -/
abbrev Nibble := BitVec 4

/-- A general register, a timer, a memory byte (R21, R32, R37). -/
abbrev Byte := BitVec 8

/-- A memory address: 12 bits, 0x000 to 0xFFF (R9 `ADDR_BITS`, R50). -/
abbrev Addr := BitVec 12

/-- An instruction word, the program counter, I, a stack entry (R24, R26, R29, R39). -/
abbrev Word := BitVec 16

end Sys2Proof
end

