-- ==== Sys2Proof/Syntax.lean ====
section
/-! DEFINITION. The 34 instructions of the opcode map (30_encoding R90), one constructor per row of opcode_table.json.
`x` and `y` are the register numbers X and Y, `n` the sprite height N, `nn` and `nnn` the immediates NN and NNN (R81). -/

namespace Sys2Proof

/-- An instruction with its operand fields, each exactly as wide as its field in the word (R81, R83). -/
inductive Instr
  /-- `00E0` CLS (R201). -/
  | cls
  /-- `00EE` RET (R131). -/
  | ret
  /-- `1NNN` JMP NNN (R132). -/
  | jmp (nnn : Addr)
  /-- `2NNN` CALL NNN (R133). -/
  | call (nnn : Addr)
  /-- `3XNN` SE Vx, NN (R134). -/
  | seImm (x : Nibble) (nn : Byte)
  /-- `4XNN` SNE Vx, NN (R135). -/
  | sneImm (x : Nibble) (nn : Byte)
  /-- `5XY0` SE Vx, Vy (R136). -/
  | seReg (x y : Nibble)
  /-- `6XNN` LD Vx, NN (R152). -/
  | ldImm (x : Nibble) (nn : Byte)
  /-- `7XNN` ADD Vx, NN (R153). -/
  | addImm (x : Nibble) (nn : Byte)
  /-- `8XY0` LD Vx, Vy (R154). -/
  | ldReg (x y : Nibble)
  /-- `8XY1` OR Vx, Vy (R155). -/
  | orReg (x y : Nibble)
  /-- `8XY2` AND Vx, Vy (R156). -/
  | andReg (x y : Nibble)
  /-- `8XY3` XOR Vx, Vy (R157). -/
  | xorReg (x y : Nibble)
  /-- `8XY4` ADD Vx, Vy (R158). -/
  | addReg (x y : Nibble)
  /-- `8XY5` SUB Vx, Vy (R159). -/
  | subReg (x y : Nibble)
  /-- `8XY6` SHR Vx, Vy (R160): Y is encoded and not read. -/
  | shr (x y : Nibble)
  /-- `8XY7` SUBN Vx, Vy (R161). -/
  | subn (x y : Nibble)
  /-- `8XYE` SHL Vx, Vy (R162): Y is encoded and not read. -/
  | shl (x y : Nibble)
  /-- `9XY0` SNE Vx, Vy (R137). -/
  | sneReg (x y : Nibble)
  /-- `ANNN` LD I, NNN (R180). -/
  | ldI (nnn : Addr)
  /-- `BNNN` JMP V0, NNN (R138). -/
  | jmpV0 (nnn : Addr)
  /-- `CXNN` RND Vx, NN (R163). -/
  | rnd (x : Nibble) (nn : Byte)
  /-- `DXYN` DRW Vx, Vy, N (R202). -/
  | drw (x y n : Nibble)
  /-- `EX9E` SKP Vx (R215). -/
  | skp (x : Nibble)
  /-- `EXA1` SKNP Vx (R216). -/
  | sknp (x : Nibble)
  /-- `FX07` LD Vx, DT (R230). -/
  | ldVxDt (x : Nibble)
  /-- `FX0A` LD Vx, K (R217). -/
  | ldVxK (x : Nibble)
  /-- `FX15` LD DT, Vx (R231). -/
  | ldDt (x : Nibble)
  /-- `FX18` LD ST, Vx (R232). -/
  | ldSt (x : Nibble)
  /-- `FX1E` ADD I, Vx (R181). -/
  | addI (x : Nibble)
  /-- `FX29` LD F, Vx (R182). -/
  | ldF (x : Nibble)
  /-- `FX33` LD B, Vx (R183). -/
  | ldB (x : Nibble)
  /-- `FX55` LD [I], Vx (R184). -/
  | ldMemVx (x : Nibble)
  /-- `FX65` LD Vx, [I] (R185). -/
  | ldVxMem (x : Nibble)
  deriving DecidableEq, Repr

end Sys2Proof
end

