-- ==== Sys2Proof/WellFormed.lean ====
section
/-! DEFINITION. Well-formed instructions and canonically spelled words. Every operand field of `Instr` is exactly as wide
as its field in the word and every value of every field is legal (30_encoding R83, R92), so the types leave nothing for a
check on an instruction to refuse. What the spec does distinguish is how a WORD is spelled (R93). -/

namespace Sys2Proof

/-- Every instruction the types can build is one the encoding admits: no field value is reserved (R83, R92). -/
def WellFormed : Instr → Bool
  | .cls | .ret | .jmp _ | .call _ | .ldI _ | .jmpV0 _ => true
  | .seImm _ _ | .sneImm _ _ | .ldImm _ _ | .addImm _ _ | .rnd _ _ => true
  | .seReg _ _ | .sneReg _ _ | .ldReg _ _ | .orReg _ _ | .andReg _ _ | .xorReg _ _ => true
  | .addReg _ _ | .subReg _ _ | .shr _ _ | .subn _ _ | .shl _ _ | .drw _ _ _ => true
  | .skp _ | .sknp _ | .ldVxDt _ | .ldVxK _ | .ldDt _ | .ldSt _ => true
  | .addI _ | .ldF _ | .ldB _ | .ldMemVx _ | .ldVxMem _ => true

/-- A word spelled as the canonical column of R90 spells it: key 0x0 has bits 11:4 equal to 0x0E, and keys 0x5 and 0x9
have a zero low nibble (R93). The other spellings decode all the same (R85, R89). -/
def canonicalWord (op : Word) : Bool :=
  let key := op.extractLsb' 12 4
  if key = 0x0#4 then op.extractLsb' 4 8 = 0x0E#8
  else if key = 0x5#4 ∨ key = 0x9#4 then op.extractLsb' 0 4 = 0x0#4
  else true

end Sys2Proof
end

