-- ==== Sys2Proof/Decode.lean ====
section
/-! DEFINITION. The decoder of 30_encoding R96, total on every word and on any bytes, the byte order of an instruction
word (20_memory R58), and the encoder written from the same table (R82, R90). -/

namespace Sys2Proof

/-! ### Fields of an instruction word (R81) -/

/-- `K = op[15:12]`, the dispatch key. -/
def fieldK (op : Word) : Nibble := op.extractLsb' 12 4
/-- `X = op[11:8]`, register number. -/
def fieldX (op : Word) : Nibble := op.extractLsb' 8 4
/-- `Y = op[7:4]`, register number. -/
def fieldY (op : Word) : Nibble := op.extractLsb' 4 4
/-- `N = op[3:0]`, sprite height or sub-operation. -/
def fieldN (op : Word) : Nibble := op.extractLsb' 0 4
/-- `NN = op[7:0]`, 8-bit immediate or sub-operation. -/
def fieldNN (op : Word) : Byte := op.extractLsb' 0 8
/-- `NNN = op[11:0]`, 12-bit address. -/
def fieldNNN (op : Word) : Addr := op.extractLsb' 0 12

/-! ### Decode (R84 to R92, R96) -/

/-- Why bytes are no instruction: by name, never a neighbouring instruction. -/
inductive DecodeError
  /-- The word's sub-operation is in no row of R90 (R91). -/
  | unrecognized (op : Word)
  /-- Fewer than the two bytes every instruction has (R80); fetch never presents such bytes. -/
  | tooShort
  deriving DecidableEq, Repr

/-- Key 0x0 sub-dispatches on N alone; bits 11:4 are ignored (R85). -/
def decodeKey0 (op : Word) : Except DecodeError Instr :=
  if fieldN op = 0x0#4 then .ok .cls
  else if fieldN op = 0xE#4 then .ok .ret
  else .error (.unrecognized op)

/-- Key 0x8 sub-dispatches on N (R86). -/
def decodeKey8 (op : Word) : Except DecodeError Instr :=
  if fieldN op = 0x0#4 then .ok (.ldReg (fieldX op) (fieldY op))
  else if fieldN op = 0x1#4 then .ok (.orReg (fieldX op) (fieldY op))
  else if fieldN op = 0x2#4 then .ok (.andReg (fieldX op) (fieldY op))
  else if fieldN op = 0x3#4 then .ok (.xorReg (fieldX op) (fieldY op))
  else if fieldN op = 0x4#4 then .ok (.addReg (fieldX op) (fieldY op))
  else if fieldN op = 0x5#4 then .ok (.subReg (fieldX op) (fieldY op))
  else if fieldN op = 0x6#4 then .ok (.shr (fieldX op) (fieldY op))
  else if fieldN op = 0x7#4 then .ok (.subn (fieldX op) (fieldY op))
  else if fieldN op = 0xE#4 then .ok (.shl (fieldX op) (fieldY op))
  else .error (.unrecognized op)

/-- Key 0xE sub-dispatches on NN (R87). -/
def decodeKeyE (op : Word) : Except DecodeError Instr :=
  if fieldNN op = 0x9E#8 then .ok (.skp (fieldX op))
  else if fieldNN op = 0xA1#8 then .ok (.sknp (fieldX op))
  else .error (.unrecognized op)

/-- Key 0xF sub-dispatches on NN (R88). -/
def decodeKeyF (op : Word) : Except DecodeError Instr :=
  if fieldNN op = 0x07#8 then .ok (.ldVxDt (fieldX op))
  else if fieldNN op = 0x0A#8 then .ok (.ldVxK (fieldX op))
  else if fieldNN op = 0x15#8 then .ok (.ldDt (fieldX op))
  else if fieldNN op = 0x18#8 then .ok (.ldSt (fieldX op))
  else if fieldNN op = 0x1E#8 then .ok (.addI (fieldX op))
  else if fieldNN op = 0x29#8 then .ok (.ldF (fieldX op))
  else if fieldNN op = 0x33#8 then .ok (.ldB (fieldX op))
  else if fieldNN op = 0x55#8 then .ok (.ldMemVx (fieldX op))
  else if fieldNN op = 0x65#8 then .ok (.ldVxMem (fieldX op))
  else .error (.unrecognized op)

/-- The one decode function: dispatch on the key, a pure total function of the word (R84, R89, R96). -/
def decode (op : Word) : Except DecodeError Instr :=
  if fieldK op = 0x0#4 then decodeKey0 op
  else if fieldK op = 0x1#4 then .ok (.jmp (fieldNNN op))
  else if fieldK op = 0x2#4 then .ok (.call (fieldNNN op))
  else if fieldK op = 0x3#4 then .ok (.seImm (fieldX op) (fieldNN op))
  else if fieldK op = 0x4#4 then .ok (.sneImm (fieldX op) (fieldNN op))
  else if fieldK op = 0x5#4 then .ok (.seReg (fieldX op) (fieldY op))
  else if fieldK op = 0x6#4 then .ok (.ldImm (fieldX op) (fieldNN op))
  else if fieldK op = 0x7#4 then .ok (.addImm (fieldX op) (fieldNN op))
  else if fieldK op = 0x8#4 then decodeKey8 op
  else if fieldK op = 0x9#4 then .ok (.sneReg (fieldX op) (fieldY op))
  else if fieldK op = 0xA#4 then .ok (.ldI (fieldNNN op))
  else if fieldK op = 0xB#4 then .ok (.jmpV0 (fieldNNN op))
  else if fieldK op = 0xC#4 then .ok (.rnd (fieldX op) (fieldNN op))
  else if fieldK op = 0xD#4 then .ok (.drw (fieldX op) (fieldY op) (fieldN op))
  else if fieldK op = 0xE#4 then decodeKeyE op
  else decodeKeyF op

/-! ### Bytes (R58, R80) -/

/-- The word two consecutive bytes make: the byte at the lower address is bits 15:8 (R58). -/
def wordOfBytes (first second : Byte) : Word := first ++ second

/-- The byte of a word that lies at the lower address (R58). -/
def firstByte (op : Word) : Byte := op.extractLsb' 8 8

/-- The byte of a word that lies at the higher address (R58). -/
def secondByte (op : Word) : Byte := op.extractLsb' 0 8

/-- Decode the first instruction of a run of bytes: it always takes exactly two (R80); the rest is handed back. -/
def decodeBytes : List Byte → Except DecodeError (Instr × List Byte)
  | first :: second :: rest =>
    match decode (wordOfBytes first second) with
    | .ok i => .ok (i, rest)
    | .error e => .error e
  | _ => .error .tooShort

/-! ### Encode (R82, R90) -/

/-- Format A: key, NNN. -/
def wordA (key : Nibble) (nnn : Addr) : Word := key ++ nnn

/-- Formats XNN and XS: key, X, low byte. -/
def wordXNN (key x : Nibble) (nn : Byte) : Word := key ++ (x ++ nn)

/-- Formats XY, XYS and XYN: key, X, Y, low nibble. -/
def wordXYN (key x y n : Nibble) : Word := key ++ (x ++ (y ++ n))

/-- The canonical word of an instruction (R90); the ignored bits are as the canonical column spells them (R93). -/
def encode : Instr → Word
  | .cls => 0x00E0#16
  | .ret => 0x00EE#16
  | .jmp nnn => wordA 0x1#4 nnn
  | .call nnn => wordA 0x2#4 nnn
  | .seImm x nn => wordXNN 0x3#4 x nn
  | .sneImm x nn => wordXNN 0x4#4 x nn
  | .seReg x y => wordXYN 0x5#4 x y 0x0#4
  | .ldImm x nn => wordXNN 0x6#4 x nn
  | .addImm x nn => wordXNN 0x7#4 x nn
  | .ldReg x y => wordXYN 0x8#4 x y 0x0#4
  | .orReg x y => wordXYN 0x8#4 x y 0x1#4
  | .andReg x y => wordXYN 0x8#4 x y 0x2#4
  | .xorReg x y => wordXYN 0x8#4 x y 0x3#4
  | .addReg x y => wordXYN 0x8#4 x y 0x4#4
  | .subReg x y => wordXYN 0x8#4 x y 0x5#4
  | .shr x y => wordXYN 0x8#4 x y 0x6#4
  | .subn x y => wordXYN 0x8#4 x y 0x7#4
  | .shl x y => wordXYN 0x8#4 x y 0xE#4
  | .sneReg x y => wordXYN 0x9#4 x y 0x0#4
  | .ldI nnn => wordA 0xA#4 nnn
  | .jmpV0 nnn => wordA 0xB#4 nnn
  | .rnd x nn => wordXNN 0xC#4 x nn
  | .drw x y n => wordXYN 0xD#4 x y n
  | .skp x => wordXNN 0xE#4 x 0x9E#8
  | .sknp x => wordXNN 0xE#4 x 0xA1#8
  | .ldVxDt x => wordXNN 0xF#4 x 0x07#8
  | .ldVxK x => wordXNN 0xF#4 x 0x0A#8
  | .ldDt x => wordXNN 0xF#4 x 0x15#8
  | .ldSt x => wordXNN 0xF#4 x 0x18#8
  | .addI x => wordXNN 0xF#4 x 0x1E#8
  | .ldF x => wordXNN 0xF#4 x 0x29#8
  | .ldB x => wordXNN 0xF#4 x 0x33#8
  | .ldMemVx x => wordXNN 0xF#4 x 0x55#8
  | .ldVxMem x => wordXNN 0xF#4 x 0x65#8

/-! ### The opcode table's numbering -/

/-- The word of an instruction whose bits opcode_table.json numbers: the one 16-bit word itself, the bits above `nbits`
zero (R80, R90). -/
def tableWord (nbits w : Nat) : Word := BitVec.ofNat 16 (w % 2 ^ nbits)

/-- The instruction the decoder reads from a table word laid out in memory order. -/
def decodeTableWord (nbits w : Nat) : Option Instr :=
  match decodeBytes [firstByte (tableWord nbits w), secondByte (tableWord nbits w)] with
  | .ok (i, _) => some i
  | .error _ => none

end Sys2Proof
end

