-- ==== Sys2Proof/Config.lean ====
section
/-! DEFINITION. What the spec leaves to an implementation (its OPEN parameters, 00_scope R9) and the free inputs of a
cycle (40_cycle R101). The parameters are plain data that a state carries (log entry 5); the free inputs are constants
without a body, so no proof can rest on their values (log entry 4). -/

namespace Sys2Proof.Config

/-- `KEYWAIT_MODE` (R9, R106, D10): whether any held key, or only a newly pressed one, completes FX0A. -/
inductive KeywaitMode
  | level
  | edge
  deriving DecidableEq, Repr

/-- `FONT_INDEX` (R9, R182, D11): whether FX29 multiplies all of Vx, or its low nibble. -/
inductive FontIndex
  | full
  | lowNibble
  deriving DecidableEq, Repr

/-- `FONT_GLYPHS` (R9, R41, D12): 16 glyphs of 5 bytes, glyph `d` at address `5*d`. -/
abbrev Glyphs := Vector (Vector Byte 5) 16

/-- The spec's OPEN parameters, taken as an argument (93_implementation_defined, treatment `parameter`). -/
structure Params where
  fontGlyphs  : Glyphs
  keywaitMode : KeywaitMode
  fontIndex   : FontIndex
  deriving DecidableEq, Repr

/-- The default glyph table of R41. PRESUMED: the spec marks these bytes as general knowledge (GK1, log entry 6). -/
def defaultGlyphs : Glyphs :=
  #v[#v[0xF0#8, 0x90#8, 0x90#8, 0x90#8, 0xF0#8], #v[0x20#8, 0x60#8, 0x20#8, 0x20#8, 0x70#8],
     #v[0xF0#8, 0x10#8, 0xF0#8, 0x80#8, 0xF0#8], #v[0xF0#8, 0x10#8, 0xF0#8, 0x10#8, 0xF0#8],
     #v[0x90#8, 0x90#8, 0xF0#8, 0x10#8, 0x10#8], #v[0xF0#8, 0x80#8, 0xF0#8, 0x10#8, 0xF0#8],
     #v[0xF0#8, 0x80#8, 0xF0#8, 0x90#8, 0xF0#8], #v[0xF0#8, 0x10#8, 0x20#8, 0x40#8, 0x40#8],
     #v[0xF0#8, 0x90#8, 0xF0#8, 0x90#8, 0xF0#8], #v[0xF0#8, 0x90#8, 0xF0#8, 0x10#8, 0xF0#8],
     #v[0xF0#8, 0x90#8, 0xF0#8, 0x90#8, 0x90#8], #v[0xE0#8, 0x90#8, 0xE0#8, 0x90#8, 0xE0#8],
     #v[0xF0#8, 0x80#8, 0x80#8, 0x80#8, 0xF0#8], #v[0xE0#8, 0x90#8, 0x90#8, 0x90#8, 0xE0#8],
     #v[0xF0#8, 0x80#8, 0xF0#8, 0x80#8, 0xF0#8], #v[0xF0#8, 0x80#8, 0xF0#8, 0x80#8, 0x80#8]]

/-- The defaults the spec names: the table of R41, `Level` (R106), `Full` (R182). -/
def Params.default : Params :=
  { fontGlyphs := defaultGlyphs, keywaitMode := .level, fontIndex := .full }

/-- The 16 key states of the keypad and of the `held` input (R35, R101). -/
abbrev Keys := Vector Bool 16

/-- FREE VALUE: which keys the input source holds down at the n-th cycle that draws its inputs (R101, R105, X19). -/
opaque freeHeld : Nat → Keys

/-- FREE VALUE: the byte `random_byte()` returns at the n-th cycle that draws its inputs (R101, R163, X6). -/
opaque freeRnd : Nat → Byte

end Sys2Proof.Config
end

