-- ==== Sys2Proof/Machine/State.lean ====
section
/-! DEFINITION. The state of the block as plain data (10_state R20), with the host's schedule, the inputs, the outputs and
the parameters beside it (log entries 1, 4, 5, 7); why a step can stop; the state after reset (R43, R271). -/

namespace Sys2Proof.Machine

/-- `LIFE` (R40). -/
inductive Lifecycle
  | uninitialized
  | initialised
  | ready
  deriving DecidableEq, Repr

/-- Memory in one canonical form: (address, byte) pairs, addresses rising, none equal to the reset contents (R37). -/
abbrev Memory := List Host.Cell

/-- The change log: (address, value) in write order (R38, R55). -/
abbrev ChangeLog := List (Addr × Byte)

/-- The display buffer: 32 rows of 64 columns; `true` is on (R34). -/
abbrev Screen := Vector (Vector Bool 64) 32

/-- A contained defect of a cycle (60_exceptions R241), with the information it records. -/
inductive Diagnostic
  /-- Code 1: the sub-operation is not in the opcode map (R112). -/
  | unrecognized (addr op : Word)
  /-- Code 2: CALL with SP = 16 (R133). -/
  | stackOverflow (addr op : Word)
  /-- Code 3: RET with SP = 0 (R131). -/
  | stackUnderflow (addr op : Word)
  /-- Code 4: EX9E or EXA1 with Vx > 0x0F (R218). -/
  | keyRange (addr op : Word) (k : Byte)
  /-- Code 5: PC > 0xFFE at fetch (R110). -/
  | fetchRange (pc : Word)
  deriving DecidableEq, Repr

/-- The result of `load_rom` (R273); `romTooLarge` is code 6 of R241 and records the ROM's length. -/
inductive LoadResult
  | ok
  | romTooLarge (length : Nat)
  deriving DecidableEq, Repr

/-- The fields the host may read (R45): neither the keypad, nor OPCODE, nor the change log is among them. DESIGN CHOICE:
LIFE, the ready flag, is not among them either. R45 says both "every field of rule R20 except `LOG`" and a list of accessors
without LIFE, and names only the keypad and OPCODE as left out; the model follows the list (log entry 25). -/
inductive Accessor
  | registers
  | addressRegister
  | programCounter
  | stackPointer
  | stack
  | delayTimer
  | soundTimer
  | displayBuffer
  | memory (a : Addr)
  deriving DecidableEq, Repr

/-- What an accessor gives back (R45). -/
inductive AccessValue
  | registers (v : Vector Byte 16)
  | addressRegister (i : Word)
  | programCounter (pc : Word)
  | stackPointer (sp : Fin 17)
  | stack (entries : Vector Word 16)
  | delayTimer (dt : Byte)
  | soundTimer (st : Byte)
  | displayBuffer (pix : Screen)
  | memory (v : Byte)
  deriving DecidableEq, Repr

/-- What the block puts out (R100, R114, R241, R256, R275). -/
inductive Output
  | diagnostic (d : Diagnostic)
  | cycleComplete
  | romLoaded (name : String)
  | loadResult (r : LoadResult)
  | drained (changes : ChangeLog)
  | accessed (v : AccessValue)
  deriving DecidableEq, Repr

/-- The operations of the block's interface with their inputs (40_cycle R100). -/
inductive HostOp
  | initialise
  | loadRom (bytes : List Byte) (name : String)
  | cycle (held : Config.Keys) (rnd : Byte)
  | tickDelayTimer
  | tickSoundTimer
  | drainChanges
  | access (a : Accessor)
  deriving DecidableEq, Repr

/-- The state: the tuple of R20, then the model's own fields. -/
structure State where
  /-- `LIFE` (R40). -/
  life : Lifecycle
  /-- `MEM` (R37), what differs from the reset contents. -/
  mem : Memory
  /-- `LOG` (R38). -/
  log : ChangeLog
  /-- `V[0..15]` (R21). -/
  v : Vector Byte 16
  /-- `I` (R24). -/
  i : Word
  /-- `PC` (R26). -/
  pc : Word
  /-- `STACK[0..15]` (R29). -/
  stack : Vector Word 16
  /-- `SP`, 0 to 16 (R30). -/
  sp : Fin 17
  /-- `DT` (R32). -/
  dt : Byte
  /-- `ST` (R33). -/
  st : Byte
  /-- `PIX` (R34). -/
  pix : Screen
  /-- `KEY[0..15]` (R35). -/
  key : Config.Keys
  /-- `LASTKEY` (R36). -/
  lastKey : Option (Fin 16)
  /-- `OPCODE` (R39). -/
  opcode : Word
  /-- Model's own: the `rnd` input of the cycle in progress (R101, log entry 4). -/
  rnd : Byte
  /-- Model's own: how many cycles have drawn free inputs (log entry 4). -/
  draws : Nat
  /-- Model's own: the OPEN parameters (R9, log entry 5). -/
  params : Config.Params
  /-- Model's own: the host's scheduled operations, oldest first (R102, log entry 1). -/
  pending : List HostOp
  /-- Model's own: what the block has put out, oldest first (R100, log entry 7). -/
  outputs : List Output
  deriving DecidableEq, Repr

/-- Why a run ends in a fault. -/
inductive Fault
  /-- Raised by the fetch of a ready cycle when PC > 0xFFE: "A model takes the first such cycle as a fault of the run"
  (R110). SAFE: no claim past it can be proved. `left` is the state R110 says the block is left in (log entry 8). -/
  | fetchRange (left : State)
  deriving DecidableEq, Repr

/-- Why a step has no meaning. -/
inductive Refusal
  /-- Raised by `exec` for an instruction without a meaning yet. SAFE: nothing about it can be proved. -/
  | notModelled (mnemonic : String)
  /-- Raised by a tick, `drain_changes` or an accessor before the first `initialise()` (R270, log entry 9). SAFE: the
  spec gives these no meaning there. -/
  | beforeInitialise (op : HostOp)
  deriving DecidableEq, Repr

/-- The state after `initialise()` (R43, R271), with the default parameters (R9) and nothing scheduled (log entries 1, 2
and 4 to 7). -/
def State.reset : State where
  life := .initialised
  mem := []
  log := []
  v := Vector.replicate 16 0x00#8
  i := 0x000#16
  pc := 0x200#16
  stack := Vector.replicate 16 0x0000#16
  sp := 0
  dt := 0x00#8
  st := 0x00#8
  pix := Vector.replicate 32 (Vector.replicate 64 false)
  key := Vector.replicate 16 false
  lastKey := none
  opcode := 0x0000#16
  rnd := 0x00#8
  draws := 0
  params := Config.Params.default
  pending := []
  outputs := []

end Sys2Proof.Machine
end

