-- ==== Sys2Proof/Machine/Ops.lean ====
section
/-! DEFINITION. The named operations over memory, registers, stack, keypad and outputs that every meaning is written with,
raising a diagnostic (the only thing an exception is on this block, 60_exceptions R240), and fetch. -/

namespace Sys2Proof.Machine

/-! ### Memory (20_memory R50 to R56) -/

/-- The reset contents of an address: the glyphs at 0x000-0x04F, zero elsewhere (R63, R271). What an unlisted address
reads as. -/
def resetByte (p : Config.Params) (a : Nat) : Byte :=
  if h : a < 80 then (p.fontGlyphs[a / 5]'(by omega))[a % 5]'(by omega) else 0x00#8

/-- The byte at an address, over the reset contents `rst`. -/
def Memory.read (rst : Nat → Byte) : Memory → Nat → Byte
  | [], a => rst a
  | (b, v) :: rest, a => if a = b then v else Memory.read rst rest a

/-- The list without any entry for an address. -/
def Memory.remove : Memory → Nat → Memory
  | [], _ => []
  | (b, v) :: rest, a => if a = b then Memory.remove rest a else (b, v) :: Memory.remove rest a

/-- The list with an entry for an address, in address order. -/
def Memory.insert : Memory → Nat → Byte → Memory
  | [], a, w => [(a, w)]
  | (b, v) :: rest, a, w =>
    if a < b then (a, w) :: (b, v) :: rest
    else if a = b then (a, w) :: rest
    else (b, v) :: Memory.insert rest a w

/-- Store a byte: a byte equal to the reset contents is not listed. -/
def Memory.write (rst : Nat → Byte) (m : Memory) (a : Nat) (w : Byte) : Memory :=
  if w = rst a then Memory.remove m a else Memory.insert m a w

/-- The canonical form: addresses strictly rising and below 4096, no entry equal to the reset contents. -/
abbrev Memory.wf (rst : Nat → Byte) (m : Memory) : Prop :=
  m.Pairwise (fun c d => c.1 < d.1) ∧ ∀ c ∈ m, c.1 < 4096 ∧ c.2 ≠ rst c.1

/-- Copy bytes to consecutive addresses, without logging (R273). -/
def Memory.load (rst : Nat → Byte) (m : Memory) (base : Nat) : List Byte → Memory
  | [] => m
  | b :: rest => Memory.load rst (Memory.write rst m base b) (base + 1) rest

/-- `MemRead(a, 1)`: no side effect (R53, R62). -/
def State.memRead (s : State) (a : Addr) : Byte :=
  Memory.read (resetByte s.params) s.mem a.toNat

/-- `MemWrite(a, 1, v)`: store and append to the change log, always (R54). -/
def State.memWrite (s : State) (a : Addr) (w : Byte) : State :=
  { s with mem := Memory.write (resetByte s.params) s.mem a.toNat w, log := s.log ++ [(a, w)] }

/-! ### Registers -/

/-- `V[r]` (R14, R21). -/
def State.getV (s : State) (r : Nibble) : Byte :=
  s.v[r.toNat]'(by have := r.isLt; omega)

/-- `V[r] <- b` (R14, R21): no register is hardwired. -/
def State.setV (s : State) (r : Nibble) (b : Byte) : State :=
  { s with v := s.v.set r.toNat b (by have := r.isLt; omega) }

/-- `I <- v`: every write of I stores `v & 0xFFF` (R24). -/
def State.setI (s : State) (w : Word) : State :=
  { s with i := w &&& 0x0FFF#16 }

/-- `PC <- target` (R14). -/
def State.setPc (s : State) (target : Word) : State :=
  { s with pc := target }

/-- The skip: PC moves past one more word, 16-bit arithmetic (R28, R130). -/
def State.skip (s : State) : State :=
  s.setPc (s.pc + 2#16)

/-- The rewind of FX0A: PC back to the instruction itself (R28, R217). -/
def State.rewind (s : State) : State :=
  s.setPc (s.pc - 2#16)

/-- `DT <- v` (R231). -/
def State.setDt (s : State) (b : Byte) : State :=
  { s with dt := b }

/-- `ST <- v` (R232). -/
def State.setSt (s : State) (b : Byte) : State :=
  { s with st := b }

/-- The display buffer replaced (R200). -/
def State.setPix (s : State) (p : Screen) : State :=
  { s with pix := p }

/-! ### Stack (R29 to R31) -/

/-- `STACK[SP] <- w; SP <- SP + 1`, for SP below 16 (R133). -/
def State.push (s : State) (w : Word) (h : s.sp.val < 16) : State :=
  { s with stack := s.stack.set s.sp.val w h, sp := ⟨s.sp.val + 1, by omega⟩ }

/-- `STACK[SP - 1]`, the entry RET reads (R131). -/
def State.top (s : State) : Word :=
  s.stack[s.sp.val - 1]'(by have := s.sp.isLt; omega)

/-- `SP <- SP - 1`: the entry itself is kept (R31). -/
def State.pop (s : State) : State :=
  { s with sp := ⟨s.sp.val - 1, by have := s.sp.isLt; omega⟩ }

/-! ### Outputs and diagnostics (60_exceptions R240 to R246) -/

/-- The block puts something out (R100). -/
def State.emit (s : State) (o : Output) : State :=
  { s with outputs := s.outputs ++ [o] }

/-- Raise a diagnostic: it is put out and the instruction does nothing else. Nothing is saved, no mode changes, control
goes to no vector (R14, R244); so there is nothing to return from (R245). -/
def State.raise (s : State) (d : Diagnostic) : State :=
  s.emit (.diagnostic d)

/-- The address of the instruction in execution: PC holds that address plus 2 (R26, R241). -/
def State.instrAddr (s : State) : Word :=
  s.pc - 2#16

/-- The numeric codes of R241. -/
def Diagnostic.code : Diagnostic → Nat
  | .unrecognized _ _ => 1
  | .stackOverflow _ _ => 2
  | .stackUnderflow _ _ => 3
  | .keyRange _ _ _ => 4
  | .fetchRange _ => 5

/-- The code of a failed `load_rom`, ROM_TOO_LARGE (R241). -/
def LoadResult.code : LoadResult → Option Nat
  | .ok => none
  | .romTooLarge _ => some 6

/-! ### Keypad (R105, R106) -/

/-- The key numbers in index order, the tie-break of R106. -/
def keyOrder : List (Fin 16) :=
  [0, 1, 2, 3, 4, 5, 6, 7, 8, 9, 10, 11, 12, 13, 14, 15]

/-- Whether a key qualifies as the last key: `prev` are the key states before this refresh, `now` after it (R106). -/
def keyQualifies (mode : Config.KeywaitMode) (prev now : Config.Keys) (k : Fin 16) : Bool :=
  match mode with
  | .level => now[k]
  | .edge => now[k] && !prev[k]

/-- The lowest-numbered qualifying key, or none (R106). -/
def lowestKey (mode : Config.KeywaitMode) (prev now : Config.Keys) : Option (Fin 16) :=
  keyOrder.find? (keyQualifies mode prev now)

/-- Keypad refresh: KEY from the input, then LASTKEY recomputed (R105, R106). -/
def State.refreshKeys (s : State) (held : Config.Keys) : State :=
  { s with key := held, lastKey := lowestKey s.params.keywaitMode s.key held }

/-- The inputs of a cycle arrive: the keypad is refreshed and `rnd` is there for the instruction (R101, R104 step 1). -/
def State.sample (s : State) (held : Config.Keys) (rnd : Byte) : State :=
  { s.refreshKeys held with rnd := rnd }

/-! ### Fetch (R104 step 2, R107, R108) -/

/-- Whether both bytes of the word at PC lie in memory (R107). -/
abbrev State.fetchable (s : State) : Prop :=
  s.pc ≤ 0x0FFE#16

/-- `(MemRead(PC,1) << 8) | MemRead(PC+1,1)`, for a fetchable PC (R58, R108). -/
def State.fetchWord (s : State) : Word :=
  wordOfBytes (s.memRead (s.pc.setWidth 12)) (s.memRead ((s.pc + 1#16).setWidth 12))

/-- A successful fetch: OPCODE is the word, PC moves on by 2 before dispatch (R108). -/
def State.fetch (s : State) : State :=
  { s with opcode := s.fetchWord, pc := s.pc + 2#16 }

/-! ### initialise (R271) -/

/-- `initialise()`: every field of the block from constants; the model's own fields stay (log entry 28). -/
def State.initialise (s : State) : State :=
  { State.reset with
    rnd := s.rnd, draws := s.draws, params := s.params, pending := s.pending, outputs := s.outputs }

end Sys2Proof.Machine
end

