-- ==== Sys2Proof/Machine/Flags.lean ====
section
/-! DEFINITION. The flag computations: VF is the only flag, and a flag write stores 0x00 or 0x01 (10_state R22). -/

namespace Sys2Proof.Machine

/-- `c ? 1 : 0`, as the byte a flag write stores (R13, R22). -/
def flagByte (c : Bool) : Byte := if c then 0x01#8 else 0x00#8

/-- `V[15] <- c ? 1 : 0` (R22). -/
def State.setFlag (s : State) (c : Bool) : State := s.setV 0xF#4 (flagByte c)

/-- The carry of 8XY4: the exact 9-bit sum exceeds 255 (R151, R158). -/
def carryOut (a b : Byte) : Bool := decide (a.toNat + b.toNat > 255)

/-- The flag of 8XY5 and 8XY7: the first operand is strictly greater (R151, R159, R161). -/
def strictlyGreater (a b : Byte) : Bool := decide (a.toNat > b.toNat)

/-- The flag of 8XY6: bit 0, shifted out (R160). -/
def lowBit (a : Byte) : Bool := a.getLsbD 0

/-- The flag of 8XYE: bit 7, shifted out (R162). -/
def highBit (a : Byte) : Bool := a.getLsbD 7

end Sys2Proof.Machine
end

