-- ==== Sys2Proof/Machine/Operands.lean ====
section
/-! DEFINITION. The operand forms of the instruction set (30_encoding R83): registers by number are `State.getV`; here are
the immediates widened, the I-relative data addresses, the font index, the decimal digits and the sprite coordinates. -/

namespace Sys2Proof.Machine

/-- `zext_16(NNN)` (R12, R132, R133, R180). -/
def zext16 (nnn : Addr) : Word := nnn.setWidth 16

/-- The k-th byte of an I-relative access, `(I + k) & 0xFFF` (20_memory R52). -/
def State.dataAddr (s : State) (k : Nat) : Addr :=
  BitVec.ofNat 12 (s.i.toNat + k)

/-- `(NNN + V[0]) mod 4096`, the target of BNNN (R138). -/
def State.indexedTarget (s : State) (nnn : Addr) : Word :=
  BitVec.ofNat 16 ((nnn.toNat + (s.getV 0x0#4).toNat) % 4096)

/-- `(I + V[x]) mod 4096` (R181). -/
def State.indexSum (s : State) (x : Nibble) : Word :=
  BitVec.ofNat 16 ((s.i.toNat + (s.getV x).toNat) % 4096)

/-- The glyph address FX29 forms, before the 12-bit mask of a write to I (R182). -/
def fontAddress (mode : Config.FontIndex) (b : Byte) : Word :=
  match mode with
  | .full => BitVec.ofNat 16 (b.toNat * 5)
  | .lowNibble => BitVec.ofNat 16 ((b &&& 0x0F#8).toNat * 5)

/-- `v div 100` (R183). -/
def hundreds (b : Byte) : Byte := BitVec.ofNat 8 (b.toNat / 100)

/-- `(v div 10) mod 10` (R183). -/
def tens (b : Byte) : Byte := BitVec.ofNat 8 (b.toNat / 10 % 10)

/-- `v mod 10` (R183). -/
def units (b : Byte) : Byte := BitVec.ofNat 8 (b.toNat % 10)

/-- Register number `r` of an ascending walk over V0..Vx (R184, R185). -/
def regNumber (r : Nat) : Nibble := BitVec.ofNat 4 r

/-- `(x0 + c) mod 64`, the column a sprite bit falls on (R202). -/
def column (x0 : Byte) (c : Nat) : Fin 64 :=
  ⟨(x0.toNat + c) % 64, Nat.mod_lt _ (by decide)⟩

/-- `(y0 + r) mod 32`, the row a sprite byte falls on (R202). -/
def row (y0 : Byte) (r : Nat) : Fin 32 :=
  ⟨(y0.toNat + r) % 32, Nat.mod_lt _ (by decide)⟩

end Sys2Proof.Machine
end

