-- ==== Sys2Proof/Machine/Alu.lean ====
section
/-! DEFINITION. The register ALU: load, add, logic, subtract, shift, random (42_alu R150 to R163). The flag forms run their
two statements in the order written, the second reading the registers as the first left them (R150, log entry 16). -/

namespace Sys2Proof.Machine

/-- `6XNN` LD Vx, NN (R152). -/
def execLdImm (x : Nibble) (nn : Byte) (s : State) : Host.Outcome State Fault Refusal :=
  .next (s.setV x nn)

/-- `7XNN` ADD Vx, NN (R153): wraps, no flag. -/
def execAddImm (x : Nibble) (nn : Byte) (s : State) : Host.Outcome State Fault Refusal :=
  .next (s.setV x (s.getV x + nn))

/-- `8XY0` LD Vx, Vy (R154). -/
def execLdReg (x y : Nibble) (s : State) : Host.Outcome State Fault Refusal :=
  .next (s.setV x (s.getV y))

/-- `8XY1` OR Vx, Vy (R155): no flag. -/
def execOrReg (x y : Nibble) (s : State) : Host.Outcome State Fault Refusal :=
  .next (s.setV x (s.getV x ||| s.getV y))

/-- `8XY2` AND Vx, Vy (R156): no flag. -/
def execAndReg (x y : Nibble) (s : State) : Host.Outcome State Fault Refusal :=
  .next (s.setV x (s.getV x &&& s.getV y))

/-- `8XY3` XOR Vx, Vy (R157): no flag. -/
def execXorReg (x y : Nibble) (s : State) : Host.Outcome State Fault Refusal :=
  .next (s.setV x (s.getV x ^^^ s.getV y))

/-- `8XY4` ADD Vx, Vy (R158): the sum is taken before the flag is written. -/
def execAddReg (x y : Nibble) (s : State) : Host.Outcome State Fault Refusal :=
  .next ((s.setFlag (carryOut (s.getV x) (s.getV y))).setV x (s.getV x + s.getV y))

/-- `8XY5` SUB Vx, Vy (R159): the subtraction reads the registers after the flag is written. -/
def execSubReg (x y : Nibble) (s : State) : Host.Outcome State Fault Refusal :=
  let t := s.setFlag (strictlyGreater (s.getV x) (s.getV y))
  .next (t.setV x (t.getV x - t.getV y))

/-- `8XY6` SHR Vx, Vy (R160): shifts Vx, after the flag is written; Vy is not read. -/
def execShr (x _y : Nibble) (s : State) : Host.Outcome State Fault Refusal :=
  let t := s.setFlag (lowBit (s.getV x))
  .next (t.setV x (t.getV x >>> 1))

/-- `8XY7` SUBN Vx, Vy (R161): the subtraction reads the registers after the flag is written. -/
def execSubn (x y : Nibble) (s : State) : Host.Outcome State Fault Refusal :=
  let t := s.setFlag (strictlyGreater (s.getV y) (s.getV x))
  .next (t.setV x (t.getV y - t.getV x))

/-- `8XYE` SHL Vx, Vy (R162): shifts Vx, after the flag is written; Vy is not read. -/
def execShl (x _y : Nibble) (s : State) : Host.Outcome State Fault Refusal :=
  let t := s.setFlag (highBit (s.getV x))
  .next (t.setV x (t.getV x <<< 1))

/-- `CXNN` RND Vx, NN (R163): the cycle's `rnd` input masked. -/
def execRnd (x : Nibble) (nn : Byte) (s : State) : Host.Outcome State Fault Refusal :=
  .next (s.setV x (s.rnd &&& nn))

end Sys2Proof.Machine
end

