-- ==== Sys2Proof/Machine/Display.lean ====
section
/-! DEFINITION. The display-buffer instructions (44_display R200 to R204). -/

namespace Sys2Proof.Machine

/-- `PIX(x, y)` (R14, R34). -/
def Screen.get (p : Screen) (x : Fin 64) (y : Fin 32) : Bool := p[y][x]

/-- `PIX(x, y) <- not PIX(x, y)` (R202). -/
def Screen.flip (p : Screen) (x : Fin 64) (y : Fin 32) : Screen :=
  p.set y.val (p[y].set x.val (!p[y][x]))

/-- Every pixel off (R201). -/
def Screen.blank : Screen := Vector.replicate 32 (Vector.replicate 64 false)

/-- The display and the collision so far, while a sprite is drawn (R202). -/
structure Canvas where
  pix : Screen
  hit : Bool
  deriving DecidableEq, Repr

/-- One set sprite bit lands on a pixel: a pixel that is on is a hit, and the pixel is flipped (R202). -/
def plot (c : Canvas) (x : Fin 64) (y : Fin 32) : Canvas :=
  { pix := Screen.flip c.pix x y, hit := c.hit || Screen.get c.pix x y }

/-- One sprite row: bit 7 of the byte is the leftmost column (R203). -/
def drawRow (x0 : Byte) (y : Fin 32) (b : Byte) (c : Canvas) : Canvas :=
  (List.range 8).foldl (fun c k => if b.getLsbD (7 - k) then plot c (column x0 k) y else c) c

/-- The whole sprite: `n` rows read from memory at I, in ascending order (R202). -/
def State.drawSprite (s : State) (x0 y0 : Byte) (n : Nat) : Canvas :=
  (List.range n).foldl (fun c r => drawRow x0 (row y0 r) (s.memRead (s.dataAddr r)) c)
    { pix := s.pix, hit := false }

/-- `00E0` CLS (R201). -/
def execCls (s : State) : Host.Outcome State Fault Refusal :=
  .next (s.setPix Screen.blank)

/-- `DXYN` DRW Vx, Vy, N (R202): the position is read before any write, VF is written last, on every DXYN. -/
def execDrw (x y n : Nibble) (s : State) : Host.Outcome State Fault Refusal :=
  let c := s.drawSprite (s.getV x) (s.getV y) n.toNat
  .next ((s.setPix c.pix).setFlag c.hit)

end Sys2Proof.Machine
end

