-- ==== Sys2Proof/Machine/Index.lean ====
section
/-! DEFINITION. The address register and the memory instructions (43_index_memory R180 to R186). -/

namespace Sys2Proof.Machine

/-- Store V0, V1, ... of the first `count` registers at I, ascending, each logged (R57, R184). -/
def State.storeRegs (s : State) (count : Nat) : State :=
  (List.range count).foldl (fun t r => t.memWrite (t.dataAddr r) (t.getV (regNumber r))) s

/-- Load the first `count` registers from memory at I, ascending (R57, R185). -/
def State.loadRegs (s : State) (count : Nat) : State :=
  (List.range count).foldl (fun t r => t.setV (regNumber r) (t.memRead (t.dataAddr r))) s

/-- `ANNN` LD I, NNN (R180). -/
def execLdI (nnn : Addr) (s : State) : Host.Outcome State Fault Refusal :=
  .next (s.setI (zext16 nnn))

/-- `FX1E` ADD I, Vx (R181): wraps at 4096, no flag. -/
def execAddI (x : Nibble) (s : State) : Host.Outcome State Fault Refusal :=
  .next (s.setI (s.indexSum x))

/-- `FX29` LD F, Vx (R182), under either value of `FONT_INDEX`. -/
def execLdF (x : Nibble) (s : State) : Host.Outcome State Fault Refusal :=
  .next (s.setI (fontAddress s.params.fontIndex (s.getV x)))

/-- `FX33` LD B, Vx (R183): hundreds, tens, units, in this order. -/
def execLdB (x : Nibble) (s : State) : Host.Outcome State Fault Refusal :=
  let v := s.getV x
  .next (((s.memWrite (s.dataAddr 0) (hundreds v)).memWrite (s.dataAddr 1) (tens v)).memWrite
    (s.dataAddr 2) (units v))

/-- `FX55` LD [I], Vx (R184): V0..Vx to memory; I is not changed. -/
def execLdMemVx (x : Nibble) (s : State) : Host.Outcome State Fault Refusal :=
  .next (s.storeRegs (x.toNat + 1))

/-- `FX65` LD Vx, [I] (R185): V0..Vx from memory; I is not changed. -/
def execLdVxMem (x : Nibble) (s : State) : Host.Outcome State Fault Refusal :=
  .next (s.loadRegs (x.toNat + 1))

end Sys2Proof.Machine
end

