-- ==== Sys2Proof/Machine/Control.lean ====
section
/-! DEFINITION. Control flow: return, jumps, call, skips (41_control_flow R130 to R139). PC is already past the
instruction's own word (R26). -/

namespace Sys2Proof.Machine

/-- The meaning every conditional skip shares: skip one word when the condition holds (R130). -/
def State.skipIf (s : State) (c : Bool) : State :=
  if c then s.skip else s

/-- `00EE` RET (R131): a RET with an empty stack is ignored with a diagnostic. -/
def execRet (s : State) : Host.Outcome State Fault Refusal :=
  .next (if s.sp.val = 0 then s.raise (.stackUnderflow s.instrAddr s.opcode)
    else (s.setPc s.top).pop)

/-- `1NNN` JMP (R132). -/
def execJmp (nnn : Addr) (s : State) : Host.Outcome State Fault Refusal :=
  .next (s.setPc (zext16 nnn))

/-- `2NNN` CALL (R133): a CALL with a full stack is ignored with a diagnostic. -/
def execCall (nnn : Addr) (s : State) : Host.Outcome State Fault Refusal :=
  .next (if h : s.sp.val < 16 then (s.push s.pc h).setPc (zext16 nnn)
    else s.raise (.stackOverflow s.instrAddr s.opcode))

/-- `3XNN` SE Vx, NN (R134). -/
def execSeImm (x : Nibble) (nn : Byte) (s : State) : Host.Outcome State Fault Refusal :=
  .next (s.skipIf (s.getV x == nn))

/-- `4XNN` SNE Vx, NN (R135). -/
def execSneImm (x : Nibble) (nn : Byte) (s : State) : Host.Outcome State Fault Refusal :=
  .next (s.skipIf (s.getV x != nn))

/-- `5XY0` SE Vx, Vy (R136). -/
def execSeReg (x y : Nibble) (s : State) : Host.Outcome State Fault Refusal :=
  .next (s.skipIf (s.getV x == s.getV y))

/-- `9XY0` SNE Vx, Vy (R137). -/
def execSneReg (x y : Nibble) (s : State) : Host.Outcome State Fault Refusal :=
  .next (s.skipIf (s.getV x != s.getV y))

/-- `BNNN` JMP V0, NNN (R138). -/
def execJmpV0 (nnn : Addr) (s : State) : Host.Outcome State Fault Refusal :=
  .next (s.setPc (s.indexedTarget nnn))

end Sys2Proof.Machine
end

