-- ==== Sys2Proof/Machine/Keypad.lean ====
section
/-! DEFINITION. The keypad instructions (45_keypad R215 to R218). They read the keypad as this cycle's refresh left it. -/

namespace Sys2Proof.Machine

/-- What EX9E and EXA1 share: skip when the state of key `k` is `want`; a number above 0x0F names no key and raises
KEY_RANGE, with no skip (R215, R216, R218). -/
def State.skipOnKey (s : State) (k : Byte) (want : Bool) : State :=
  if h : k.toNat < 16 then s.skipIf (s.key[k.toNat]'h == want)
  else s.raise (.keyRange s.instrAddr s.opcode k)

/-- `EX9E` SKP Vx (R215). -/
def execSkp (x : Nibble) (s : State) : Host.Outcome State Fault Refusal :=
  .next (s.skipOnKey (s.getV x) true)

/-- `EXA1` SKNP Vx (R216). -/
def execSknp (x : Nibble) (s : State) : Host.Outcome State Fault Refusal :=
  .next (s.skipOnKey (s.getV x) false)

/-- `FX0A` LD Vx, K (R217): wait by re-execution. -/
def execLdVxK (x : Nibble) (s : State) : Host.Outcome State Fault Refusal :=
  .next (match s.lastKey with
    | none => s.rewind
    | some k => s.setV x (BitVec.ofNat 8 k.val))

end Sys2Proof.Machine
end

