-- ==== Sys2Proof/Machine/Timers.lean ====
section
/-! DEFINITION. The timer instructions (46_timers R230 to R232) and the countdown of both timers, which belongs to the
host's ticks (60_exceptions R252, R253). -/

namespace Sys2Proof.Machine

/-- `FX07` LD Vx, DT (R230). -/
def execLdVxDt (x : Nibble) (s : State) : Host.Outcome State Fault Refusal :=
  .next (s.setV x s.dt)

/-- `FX15` LD DT, Vx (R231). -/
def execLdDt (x : Nibble) (s : State) : Host.Outcome State Fault Refusal :=
  .next (s.setDt (s.getV x))

/-- `FX18` LD ST, Vx (R232). -/
def execLdSt (x : Nibble) (s : State) : Host.Outcome State Fault Refusal :=
  .next (s.setSt (s.getV x))

/-- One tick of a timer: down by one, never below 0 (R249, R252, R253). -/
def countDown (b : Byte) : Byte :=
  if b.toNat > 0 then b - 1#8 else b

end Sys2Proof.Machine
end

