-- ==== Sys2Proof/Machine/Cycle.lean ====
section
/-! DEFINITION. One `cycle(held, rnd)` (40_cycle R103 to R114): keypad refresh, fetch, decode and execute, notify. -/

namespace Sys2Proof.Machine

/-- Step 4 of a cycle: one CycleComplete for every cycle executed in Ready (R114). -/
def State.complete (s : State) : State := s.emit .cycleComplete

/-- Step 4 after the instruction's outcome. -/
def completed : Host.Outcome State Fault Refusal → Host.Outcome State Fault Refusal
  | .next t => .next t.complete
  | .fault r => .fault r
  | .refused r => .refused r

/-- Step 3: execute the word in OPCODE, by its instruction's rule (R111) or as unrecognized (R112). -/
def State.execute (s : State) : Host.Outcome State Fault Refusal :=
  match decode s.opcode with
  | .ok i => exec i s
  | .error _ => .next (s.raise (.unrecognized s.instrAddr s.opcode))

/-- Steps 2 to 4, the keypad refreshed: a PC above 0xFFE is the fetch-range defect, a fault of the run that carries the
state R110 leaves (log entry 8). -/
def State.fetchExecute (s : State) : Host.Outcome State Fault Refusal :=
  if s.fetchable then completed s.fetch.execute
  else .fault (.fetchRange (s.raise (.fetchRange s.pc)).complete)

/-- `cycle(held, rnd)`: nothing at all unless Ready (R103), else steps 1 to 4 (R104). -/
def State.cycle (s : State) (held : Config.Keys) (rnd : Byte) : Host.Outcome State Fault Refusal :=
  if s.life = .ready then (s.sample held rnd).fetchExecute else .next s

/-- The count of free inputs drawn: a cycle that is not ready consumes none (R103, log entry 4). -/
def State.draw (s : State) : State :=
  if s.life = .ready then { s with draws := s.draws + 1 } else s

/-- A cycle on the next free inputs (X6, X19, log entry 4). -/
def State.freeCycle (s : State) : Host.Outcome State Fault Refusal :=
  s.draw.cycle (Config.freeHeld s.draws) (Config.freeRnd s.draws)

end Sys2Proof.Machine
end

