-- ==== Sys2Proof/Machine/HostOps.lean ====
section
/-! DEFINITION. The host's operations (40_cycle R100), each one atomic transition. -/

namespace Sys2Proof.Machine

/-- The longest ROM, 4096 - 0x200 bytes (R9 `ROM_MAX`). -/
def romMax : Nat := 3584

/-- `load_rom(bytes, name)`: initialise first; too long a ROM leaves the block initialised and not ready, with no byte
copied; else the bytes go to 0x200, unlogged, and the block is ready (R273, R274, R275). -/
def State.loadRom (s : State) (bytes : List Byte) (name : String) : State :=
  let t := s.initialise
  if bytes.length > romMax then t.emit (.loadResult (.romTooLarge bytes.length))
  else ({ t with
    mem := Memory.load (resetByte t.params) t.mem 0x200 bytes
    life := .ready }.emit (.romLoaded name)).emit (.loadResult .ok)

/-- `tick_delay_timer()` (R252). -/
def State.tickDelayTimer (s : State) : State := s.setDt (countDown s.dt)

/-- `tick_sound_timer()` (R253). -/
def State.tickSoundTimer (s : State) : State := s.setSt (countDown s.st)

/-- `drain_changes()`: hand the log out and clear it (R56). -/
def State.drainChanges (s : State) : State :=
  { s.emit (.drained s.log) with log := [] }

/-- The value of a read-only accessor (R45). -/
def State.accessValue (s : State) : Accessor → AccessValue
  | .registers => .registers s.v
  | .addressRegister => .addressRegister s.i
  | .programCounter => .programCounter s.pc
  | .stackPointer => .stackPointer s.sp
  | .stack => .stack s.stack
  | .delayTimer => .delayTimer s.dt
  | .soundTimer => .soundTimer s.st
  | .displayBuffer => .displayBuffer s.pix
  | .memory a => .memory (s.memRead a)

/-- An operation that has no meaning before the first `initialise()` is refused there (R270, log entry 9). -/
def State.needsInit (s : State) (op : HostOp) (t : State) : Host.Outcome State Fault Refusal :=
  if s.life = .uninitialized then .refused (.beforeInitialise op) else .next t

/-- One operation of the host (R100). -/
def State.perform (s : State) (op : HostOp) : Host.Outcome State Fault Refusal :=
  match op with
  | .initialise => .next s.initialise
  | .loadRom bytes name => .next (s.loadRom bytes name)
  | .cycle held rnd => s.cycle held rnd
  | .tickDelayTimer => s.needsInit op s.tickDelayTimer
  | .tickSoundTimer => s.needsInit op s.tickSoundTimer
  | .drainChanges => s.needsInit op s.drainChanges
  | .access a => s.needsInit op (s.emit (.accessed (s.accessValue a)))

/-- The next operation of the host: the oldest scheduled one, or, when nothing is scheduled, a cycle on free inputs
(R102, log entry 1). -/
def State.hostMove (s : State) : Host.Outcome State Fault Refusal :=
  match s.pending with
  | [] => s.freeCycle
  | op :: rest => { s with pending := rest }.perform op

/-- The state a load of one instruction word leaves at the place the next cycle fetches from (log entry 3). -/
def State.placeWord (s : State) (op : Word) : State :=
  let pc := if s.fetchable then s.pc else 0x200#16
  let rst := resetByte s.params
  { s with
    life := .ready
    pending := []
    pc := pc
    mem := Memory.write rst (Memory.write rst s.mem pc.toNat (firstByte op)) (pc.toNat + 1) (secondByte op) }

end Sys2Proof.Machine
end

