-- ==== Sys2Proof/Machine/Step.lean ====
section
/-! DEFINITION. One step: the host's next operation (40_cycle R100, R102). -/

namespace Sys2Proof.Machine

/-- One atomic transition of the block (R4, R61). -/
def step (s : State) : Host.Outcome State Fault Refusal := s.hostMove

/-- `s` with an instruction of opcode_table.json's numbering placed where the very next step fetches it (log entry 3). -/
def State.withFetchWord (s : State) (nbits w : Nat) : State := s.placeWord (tableWord nbits w)

end Sys2Proof.Machine
end

