-- ==== Sys2Proof/Safety.lean ====
section
/-! DEFINITION. The terms claims use: the places of the state and what a step leaves unchanged, the invariant of every
state a run can reach, a halted state, a defect-free cycle. -/

namespace Sys2Proof.Machine

/-! ### Places and frames -/

/-- Every place of the state, one by one: each register, stack entry, pixel, key and byte of memory is a place. -/
inductive Loc
  | life
  | byte (a : Addr)
  | log
  | v (r : Nibble)
  | i
  | pc
  | stack (k : Fin 16)
  | sp
  | dt
  | st
  | pixel (x : Fin 64) (y : Fin 32)
  | key (k : Fin 16)
  | lastKey
  | opcode
  | rnd
  | draws
  | params
  | pending
  | outputs
  deriving DecidableEq, Repr

/-- A place holds the same after as before. -/
def Loc.same (s t : State) : Loc → Prop
  | .life => t.life = s.life
  | .byte a => t.memRead a = s.memRead a
  | .log => t.log = s.log
  | .v r => t.getV r = s.getV r
  | .i => t.i = s.i
  | .pc => t.pc = s.pc
  | .stack k => t.stack[k] = s.stack[k]
  | .sp => t.sp = s.sp
  | .dt => t.dt = s.dt
  | .st => t.st = s.st
  | .pixel x y => Screen.get t.pix x y = Screen.get s.pix x y
  | .key k => t.key[k] = s.key[k]
  | .lastKey => t.lastKey = s.lastKey
  | .opcode => t.opcode = s.opcode
  | .rnd => t.rnd = s.rnd
  | .draws => t.draws = s.draws
  | .params => t.params = s.params
  | .pending => t.pending = s.pending
  | .outputs => t.outputs = s.outputs

/-- From `s` to `t` every place outside `written` is unchanged. -/
def Frame (written : Loc → Prop) (s t : State) : Prop :=
  ∀ l, ¬ written l → Loc.same s t l

/-! ### The invariant -/

/-- I never leaves 0x000-0xFFF (R24). -/
abbrev State.indexInRange (s : State) : Prop := s.i.toNat < 0x1000

/-- PC never passes 0x1002 and no stack entry passes 0x1000 (R28). -/
abbrev State.pcInRange (s : State) : Prop :=
  s.pc.toNat ≤ 0x1002 ∧ ∀ k : Fin 16, s.stack[k].toNat ≤ 0x1000

/-- The last key is one that is held (R106, both values of `KEYWAIT_MODE`). -/
abbrev State.lastKeyHeld (s : State) : Prop :=
  ∀ k : Fin 16, s.lastKey = some k → s.key[k] = true

/-- Between `initialise()` and a successful load no timer runs (R252, R253). -/
abbrev State.timersIdle (s : State) : Prop :=
  s.life = .initialised → s.dt = 0x00#8 ∧ s.st = 0x00#8

/-- What every operation of the host keeps. -/
abbrev State.Inv (s : State) : Prop :=
  Memory.wf (resetByte s.params) s.mem ∧ s.indexInRange ∧ s.pcInRange ∧ s.lastKeyHeld ∧ s.timersIdle

/-! ### Ends of a run -/

/-- A program has reached a halt: the word at PC is a jump to itself (R116). -/
abbrev State.halted (s : State) : Prop :=
  s.life = .ready ∧ s.fetchable ∧ ∃ nnn : Addr, s.fetchWord = encode (.jmp nnn) ∧ s.pc = zext16 nnn

/-- An outcome of a cycle from `s` without a defect: a next state, and only CycleComplete put out (R277). -/
def defectFree (s : State) (o : Host.Outcome State Fault Refusal) : Prop :=
  ∃ t, o = .next t ∧ t.outputs = s.outputs ++ [.cycleComplete]

end Sys2Proof.Machine
end

