-- ==== Sys2Proof/Certificates/Slice0/Obligations.lean ====
section
/-! DEFINITION. The statements for the provers, from the spec's numbered rules: decoding, the cycle, each instruction with
what it changes and what it leaves (every one completes somewhere), the host's operations, and the invariants. Where a
statement rests on a point the spec settled itself (its decisions D<n>) the docstring names the decision. -/

namespace Sys2Proof.Claims
open Sys2Proof.Machine

/-- Every word of a row of the opcode map decodes to the row's instruction, its operands taken from the word's fields. -/
def DecodesAs (mat mask : Word) (ins : Word → Instr) : Prop :=
  ∀ op : Word, op &&& mask = mat → decode op = .ok (ins op)

/-- VF holds 0x01 where `c` holds and 0x00 where it does not (R22). -/
def FlagSays (t : State) (c : Prop) : Prop :=
  (c ∧ t.getV 0xF#4 = 0x01#8) ∨ (¬ c ∧ t.getV 0xF#4 = 0x00#8)

/-- The flag byte of a condition on numbers (R22). -/
def bit (c : Prop) [Decidable c] : Nat := if c then 1 else 0

/-- A row of the opcode map of R90: match, mask, and the instruction with its operand fields. -/
structure Row where
  mat  : Word
  mask : Word
  ins  : Word → Instr

/-- The 34 rows of R90, in the table's order. -/
def opcodeMap : List Row :=
  [⟨0x0000#16, 0xF00F#16, fun _ => .cls⟩,
   ⟨0x000E#16, 0xF00F#16, fun _ => .ret⟩,
   ⟨0x1000#16, 0xF000#16, fun op => .jmp (fieldNNN op)⟩,
   ⟨0x2000#16, 0xF000#16, fun op => .call (fieldNNN op)⟩,
   ⟨0x3000#16, 0xF000#16, fun op => .seImm (fieldX op) (fieldNN op)⟩,
   ⟨0x4000#16, 0xF000#16, fun op => .sneImm (fieldX op) (fieldNN op)⟩,
   ⟨0x5000#16, 0xF000#16, fun op => .seReg (fieldX op) (fieldY op)⟩,
   ⟨0x6000#16, 0xF000#16, fun op => .ldImm (fieldX op) (fieldNN op)⟩,
   ⟨0x7000#16, 0xF000#16, fun op => .addImm (fieldX op) (fieldNN op)⟩,
   ⟨0x8000#16, 0xF00F#16, fun op => .ldReg (fieldX op) (fieldY op)⟩,
   ⟨0x8001#16, 0xF00F#16, fun op => .orReg (fieldX op) (fieldY op)⟩,
   ⟨0x8002#16, 0xF00F#16, fun op => .andReg (fieldX op) (fieldY op)⟩] ++
  [⟨0x8003#16, 0xF00F#16, fun op => .xorReg (fieldX op) (fieldY op)⟩,
   ⟨0x8004#16, 0xF00F#16, fun op => .addReg (fieldX op) (fieldY op)⟩,
   ⟨0x8005#16, 0xF00F#16, fun op => .subReg (fieldX op) (fieldY op)⟩,
   ⟨0x8006#16, 0xF00F#16, fun op => .shr (fieldX op) (fieldY op)⟩,
   ⟨0x8007#16, 0xF00F#16, fun op => .subn (fieldX op) (fieldY op)⟩,
   ⟨0x800E#16, 0xF00F#16, fun op => .shl (fieldX op) (fieldY op)⟩,
   ⟨0x9000#16, 0xF000#16, fun op => .sneReg (fieldX op) (fieldY op)⟩,
   ⟨0xA000#16, 0xF000#16, fun op => .ldI (fieldNNN op)⟩,
   ⟨0xB000#16, 0xF000#16, fun op => .jmpV0 (fieldNNN op)⟩,
   ⟨0xC000#16, 0xF000#16, fun op => .rnd (fieldX op) (fieldNN op)⟩,
   ⟨0xD000#16, 0xF000#16, fun op => .drw (fieldX op) (fieldY op) (fieldN op)⟩] ++
  [⟨0xE09E#16, 0xF0FF#16, fun op => .skp (fieldX op)⟩,
   ⟨0xE0A1#16, 0xF0FF#16, fun op => .sknp (fieldX op)⟩,
   ⟨0xF007#16, 0xF0FF#16, fun op => .ldVxDt (fieldX op)⟩,
   ⟨0xF00A#16, 0xF0FF#16, fun op => .ldVxK (fieldX op)⟩,
   ⟨0xF015#16, 0xF0FF#16, fun op => .ldDt (fieldX op)⟩,
   ⟨0xF018#16, 0xF0FF#16, fun op => .ldSt (fieldX op)⟩,
   ⟨0xF01E#16, 0xF0FF#16, fun op => .addI (fieldX op)⟩,
   ⟨0xF029#16, 0xF0FF#16, fun op => .ldF (fieldX op)⟩,
   ⟨0xF033#16, 0xF0FF#16, fun op => .ldB (fieldX op)⟩,
   ⟨0xF055#16, 0xF0FF#16, fun op => .ldMemVx (fieldX op)⟩,
   ⟨0xF065#16, 0xF0FF#16, fun op => .ldVxMem (fieldX op)⟩]

/-- A key counts for FX0A: held now, and under `Edge` not held at the refresh before (R106). -/
def Qualifies (mode : Config.KeywaitMode) (prev now : Config.Keys) (k : Fin 16) : Prop :=
  now[k] = true ∧ (mode = .edge → prev[k] = false)

/-- LASTKEY is the lowest key that counts, or none (R106). -/
def IsLastKey (mode : Config.KeywaitMode) (prev now : Config.Keys) (l : Option (Fin 16)) : Prop :=
  (l = none ↔ ∀ k, ¬ Qualifies mode prev now k) ∧
  ∀ k, l = some k ↔ Qualifies mode prev now k ∧ ∀ j < k, ¬ Qualifies mode prev now j

/-- The places a cycle's inputs arrive at: the keypad, the last key, the random byte (R104 step 1). -/
def inputPlace (l : Loc) : Prop := (∃ k, l = .key k) ∨ l = .lastKey ∨ l = .rnd

/-- The registers an instruction writes (R23). -/
def writesV : Instr → Nibble → Prop
  | .ldImm x _, r | .addImm x _, r | .ldReg x _, r | .orReg x _, r | .andReg x _, r | .xorReg x _, r => r = x
  | .rnd x _, r | .ldVxDt x, r | .ldVxK x, r => r = x
  | .addReg x _, r | .subReg x _, r | .shr x _, r | .subn x _, r | .shl x _, r => r = x ∨ r = 0xF#4
  | .drw _ _ _, r => r = 0xF#4
  | .ldVxMem x, r => r.toNat ≤ x.toNat
  | .cls, _ | .ret, _ | .jmp _, _ | .call _, _ | .seImm _ _, _ | .sneImm _ _, _ | .seReg _ _, _ => False
  | .sneReg _ _, _ | .ldI _, _ | .jmpV0 _, _ | .skp _, _ | .sknp _, _ | .ldDt _, _ | .ldSt _, _ => False
  | .addI _, _ | .ldF _, _ | .ldB _, _ | .ldMemVx _, _ => False

/-- Whether a sprite of `n` rows at (x0, y0) has its set bit over pixel (x, y): the distance of the pixel from the
sprite's corner, around the screen, is a column 0..7 and a row below `n`, and bit 7 is the leftmost column (R202, R203). -/
def spriteBit (s : State) (x0 y0 : Byte) (n : Nat) (x : Fin 64) (y : Fin 32) : Prop :=
  (x.val + 64 - x0.toNat % 64) % 64 < 8 ∧ (y.val + 32 - y0.toNat % 32) % 32 < n ∧
  (s.memRead (s.dataAddr ((y.val + 32 - y0.toNat % 32) % 32))).getLsbD
    (7 - (x.val + 64 - x0.toNat % 64) % 64) = true

/-- Memory after the writes a change log records, over the reads before them. -/
def replay (before : Addr → Byte) (changes : ChangeLog) : Addr → Byte :=
  changes.foldl (fun mem c a => if a = c.1 then c.2 else mem a) before

end Sys2Proof.Claims

open Sys2Proof Sys2Proof.Machine Sys2Proof.Claims

/-! ### Decoding (30_encoding) -/

/-- Decoding the encoding of any well-formed instruction gives it back, every operand at every value. -/
def Obligations.DecodeInvertsEncode : Prop :=
  ∀ i : Instr, WellFormed i = true → decode (encode i) = .ok i

/-- A canonically spelled word that decodes is the encoding of what it decodes to (R90, R93; encodings outside the
canonical column are aliases by decisions D8 and D9). -/
def Obligations.EncodeInvertsDecodeOnCanonicalWords : Prop :=
  (∀ i : Instr, canonicalWord (encode i) = true) ∧
  ∀ (op : Word) (i : Instr), canonicalWord op = true → decode op = .ok i → encode i = op

/-- The opcode map of R90: 34 rows, each selecting words that decode to its instruction; no word selects two rows; a word
that selects none is unrecognized. Bits 11:4 of key 0 and the low nibble of keys 5 and 9 are ignored by decisions D8, D9. -/
def Obligations.OpcodeMapDecodes : Prop :=
  opcodeMap.length = 34 ∧
  (∀ row ∈ opcodeMap, DecodesAs row.mat row.mask row.ins) ∧
  opcodeMap.Pairwise (fun a b => ∀ op : Word, ¬ (op &&& a.mask = a.mat ∧ op &&& b.mask = b.mat)) ∧
  ∀ op : Word, (∀ row ∈ opcodeMap, op &&& row.mask ≠ row.mat) → decode op = .error (.unrecognized op)

/-- Keys 0x8, 0xE and 0xF sub-dispatch: exactly the sub-operations R86, R87 and R88 list are recognized. -/
def Obligations.SubDispatchRecognizesItsList : Prop :=
  ∀ op : Word,
    (fieldK op = 0x8#4 → (decode op = .error (.unrecognized op) ↔
      fieldN op ∈ [0x8#4, 0x9#4, 0xA#4, 0xB#4, 0xC#4, 0xD#4, 0xF#4])) ∧
    (fieldK op = 0xE#4 → (decode op = .error (.unrecognized op) ↔ ¬ fieldNN op ∈ [0x9E#8, 0xA1#8])) ∧
    (fieldK op = 0xF#4 → (decode op = .error (.unrecognized op) ↔
      ¬ fieldNN op ∈ [0x07#8, 0x0A#8, 0x15#8, 0x18#8, 0x1E#8, 0x29#8, 0x33#8, 0x55#8, 0x65#8])) ∧
    (∀ x y : Nibble,
      decode (wordXYN 0x8#4 x y 0x0#4) = .ok (.ldReg x y) ∧ decode (wordXYN 0x8#4 x y 0x1#4) = .ok (.orReg x y) ∧
      decode (wordXYN 0x8#4 x y 0x2#4) = .ok (.andReg x y) ∧ decode (wordXYN 0x8#4 x y 0x3#4) = .ok (.xorReg x y) ∧
      decode (wordXYN 0x8#4 x y 0x4#4) = .ok (.addReg x y) ∧ decode (wordXYN 0x8#4 x y 0x5#4) = .ok (.subReg x y) ∧
      decode (wordXYN 0x8#4 x y 0x6#4) = .ok (.shr x y) ∧ decode (wordXYN 0x8#4 x y 0x7#4) = .ok (.subn x y) ∧
      decode (wordXYN 0x8#4 x y 0xE#4) = .ok (.shl x y)) ∧
    (∀ x : Nibble,
      decode (wordXNN 0xE#4 x 0x9E#8) = .ok (.skp x) ∧ decode (wordXNN 0xE#4 x 0xA1#8) = .ok (.sknp x) ∧
      decode (wordXNN 0xF#4 x 0x07#8) = .ok (.ldVxDt x) ∧ decode (wordXNN 0xF#4 x 0x0A#8) = .ok (.ldVxK x) ∧
      decode (wordXNN 0xF#4 x 0x15#8) = .ok (.ldDt x) ∧ decode (wordXNN 0xF#4 x 0x18#8) = .ok (.ldSt x) ∧
      decode (wordXNN 0xF#4 x 0x1E#8) = .ok (.addI x) ∧ decode (wordXNN 0xF#4 x 0x29#8) = .ok (.ldF x) ∧
      decode (wordXNN 0xF#4 x 0x33#8) = .ok (.ldB x) ∧ decode (wordXNN 0xF#4 x 0x55#8) = .ok (.ldMemVx x) ∧
      decode (wordXNN 0xF#4 x 0x65#8) = .ok (.ldVxMem x))

/-- A few words written out from the opcode map decode to what they stand for (a sanity statement). -/
def Obligations.SampleWordsDecode : Prop :=
  decode 0x00E0#16 = .ok .cls ∧ decode 0x00EE#16 = .ok .ret ∧ decode 0x1AAA#16 = .ok (.jmp 0xAAA#12) ∧
  decode 0x8AB4#16 = .ok (.addReg 0xA#4 0xB#4) ∧ decode 0xD123#16 = .ok (.drw 0x1#4 0x2#4 0x3#4) ∧
  decode 0xE59E#16 = .ok (.skp 0x5#4) ∧ decode 0xF265#16 = .ok (.ldVxMem 0x2#4) ∧
  decode 0x8AB9#16 = .error (.unrecognized 0x8AB9#16)

/-! ### The cycle (40_cycle, 60_exceptions) -/

/-- A step of a ready block runs the instruction at PC: with a scheduled cycle's inputs, or with free ones when nothing is
scheduled (log entries 1, 4), the keypad is refreshed, the word fetched, the decoded instruction executed by `exec`, and
CycleComplete put out; a word that is no instruction is unrecognized. -/
def Obligations.StepRunsTheDecodedInstruction : Prop :=
  ∀ s : State, s.life = .ready → s.fetchable →
    (∀ held rnd rest, s.pending = .cycle held rnd :: rest →
      (∀ i, decode s.fetchWord = .ok i →
        step s = completed (exec i (({ s with pending := rest }.sample held rnd).fetch))) ∧
      (∀ e, decode s.fetchWord = .error e →
        step s = .next (((({ s with pending := rest }.sample held rnd).fetch).raise
          (.unrecognized s.pc s.fetchWord)).complete))) ∧
    (s.pending = [] →
      (∀ i, decode s.fetchWord = .ok i → step s = completed (exec i
        (({ s with draws := s.draws + 1 }.sample (Config.freeHeld s.draws) (Config.freeRnd s.draws)).fetch))) ∧
      (∀ e, decode s.fetchWord = .error e →
        step s = .next (((({ s with draws := s.draws + 1 }.sample (Config.freeHeld s.draws)
          (Config.freeRnd s.draws)).fetch).raise (.unrecognized s.pc s.fetchWord)).complete)))

/-- R103: a cycle of a block that is not ready changes nothing and puts nothing out, whatever its inputs. -/
def Obligations.CycleIsANoOpUnlessReady : Prop :=
  ∀ (s : State) (held : Config.Keys) (rnd : Byte), s.life ≠ .ready → s.cycle held rnd = .next s

/-- R58 and R108: the word is big-endian, and fetch latches it in OPCODE and moves PC on by 2. That OPCODE still holds it
after the cycle is R39 with decision D22 (log entry 19). -/
def Obligations.FetchIsBigEndianAndAdvances : Prop :=
  (∀ s : State, s.fetchable →
    s.fetch.opcode.toNat = (s.memRead (BitVec.ofNat 12 s.pc.toNat)).toNat * 256
      + (s.memRead (BitVec.ofNat 12 (s.pc.toNat + 1))).toNat ∧
    s.fetch.pc = s.pc + 2#16 ∧ Frame (fun l => l = .opcode ∨ l = .pc) s s.fetch ∧
    (s.pc = 0x200#16 → s.memRead 0x200#12 = 0x1A#8 → s.memRead 0x201#12 = 0xAA#8 →
      s.fetch.opcode = 0x1AAA#16 ∧ s.fetch.pc = 0x202#16)) ∧
  ∀ (s t : State) (held : Config.Keys) (rnd : Byte), s.life = .ready → s.cycle held rnd = .next t →
    t.opcode = s.fetchWord

/-- R105: after every executed cycle the key states are the cycle's `held` input, and they are refreshed before the
instruction runs. -/
def Obligations.KeypadHoldsTheCyclesSample : Prop :=
  ∀ (s t : State) (held : Config.Keys) (rnd : Byte), s.life = .ready →
    (s.cycle held rnd = .next t → ∀ k : Fin 16, t.key[k] = held[k]) ∧
    s.cycle held rnd = ({ s with key := held, lastKey := (s.sample held rnd).lastKey, rnd := rnd }).fetchExecute

/-- R106: LASTKEY is recomputed at every refresh as the lowest-numbered qualifying key, or none; the parameter
`KEYWAIT_MODE` (decision D10) says whether held or newly pressed keys qualify. -/
def Obligations.LastKeyIsTheLowestThatQualifies : Prop :=
  ∀ (s t : State) (held : Config.Keys) (rnd : Byte), s.life = .ready → s.cycle held rnd = .next t →
    IsLastKey s.params.keywaitMode s.key held t.lastKey

/-- R107: with PC at most 0xFFE a ready cycle always reaches a next state (decision D5 for what happens above it). -/
def Obligations.CycleCompletesWhenFetchable : Prop :=
  ∀ (s : State) (held : Config.Keys) (rnd : Byte), s.life = .ready →
    (s.fetchable ↔ ∃ t, s.cycle held rnd = .next t)

/-- R110 (decisions D5, D21): PC above 0xFFE is a fault of the run; the block is left with only the keypad refreshed, has
put out FETCH_RANGE and CycleComplete, and every later cycle meets the same defect. -/
def Obligations.FetchRangeDefect : Prop :=
  ∀ (s : State) (held : Config.Keys) (rnd : Byte), s.life = .ready → ¬ s.fetchable →
    ∃ left, s.cycle held rnd = .fault (.fetchRange left) ∧
      left.outputs = s.outputs ++ [.diagnostic (.fetchRange s.pc), .cycleComplete] ∧
      (∀ k : Fin 16, left.key[k] = held[k]) ∧ IsLastKey s.params.keywaitMode s.key held left.lastKey ∧
      Frame (fun l => inputPlace l ∨ l = .outputs) s left ∧
      ∀ held' rnd', ∃ left', left.cycle held' rnd' = .fault (.fetchRange left') ∧ left'.pc = s.pc

/-- R112: a cycle on an unrecognized word changes only PC (by the fetch advance), OPCODE and the sampled inputs, and puts
out UNRECOGNIZED with the word's address and the word; the CycleComplete after it is R114's with decision D21 (log entry
26). -/
def Obligations.UnrecognizedWordIsANoOpWithADiagnostic : Prop :=
  ∀ (s : State) (held : Config.Keys) (rnd : Byte) (e : DecodeError), s.life = .ready → s.fetchable →
    decode s.fetchWord = .error e →
    ∃ t, s.cycle held rnd = .next t ∧ t.pc = s.pc + 2#16 ∧ t.opcode = s.fetchWord ∧
      t.outputs = s.outputs ++ [.diagnostic (.unrecognized s.pc s.fetchWord), .cycleComplete] ∧
      Frame (fun l => inputPlace l ∨ l = .opcode ∨ l = .pc ∨ l = .outputs) s t

/-- R114 and R242 (decision D21, log entry 26): a ready cycle puts out one CycleComplete, last, and before it at most one diagnostic,
whose code is 1 to 4 in a next state. -/
def Obligations.OneCompletionAtMostOneDiagnostic : Prop :=
  ∀ (s t : State) (held : Config.Keys) (rnd : Byte), s.life = .ready → s.cycle held rnd = .next t →
    t.outputs = s.outputs ++ [.cycleComplete] ∨
    ∃ d : Diagnostic, 1 ≤ d.code ∧ d.code ≤ 4 ∧ t.outputs = s.outputs ++ [.diagnostic d, .cycleComplete]

/-- R244 (decisions D6, D20): a cycle that raised a diagnostic leaves the state before it with the inputs sampled, OPCODE
the fetched word and PC advanced by 2; nothing is saved, no mode changes, control goes to no vector. -/
def Obligations.DiagnosticsArePrecise : Prop :=
  ∀ (s t : State) (held : Config.Keys) (rnd : Byte) (d : Diagnostic), s.life = .ready →
    s.cycle held rnd = .next t → t.outputs = s.outputs ++ [.diagnostic d, .cycleComplete] →
    t.pc = s.pc + 2#16 ∧ t.opcode = s.fetchWord ∧
      Frame (fun l => inputPlace l ∨ l = .opcode ∨ l = .pc ∨ l = .outputs) s t

/-- R240: nothing inside an instruction stops the block: every instruction in every state gives a next state, and it
either puts nothing out or puts out one diagnostic and does nothing else. -/
def Obligations.InstructionsAreContained : Prop :=
  ∀ (i : Instr) (s : State), ∃ t, exec i s = .next t ∧
    (t.outputs = s.outputs ∨
      ∃ d : Diagnostic, t.outputs = s.outputs ++ [.diagnostic d] ∧ Frame (· = .outputs) s t)

/-- R116: once the word at PC is a jump to itself, every cycle leaves the block halted there and changes nothing but the
sampled inputs and OPCODE, which then holds that word. -/
def Obligations.HaltIdiomStaysHalted : Prop :=
  ∀ (s : State) (held : Config.Keys) (rnd : Byte), s.halted →
    ∃ t, s.cycle held rnd = .next t ∧ t.halted ∧ t.opcode = s.fetchWord ∧
      t.outputs = s.outputs ++ [.cycleComplete] ∧
      Frame (fun l => inputPlace l ∨ l = .opcode ∨ l = .outputs) s t

/-! ### Control flow (41_control_flow) -/

/-- R131: RET takes PC from the top of the stack and keeps the entry (R31). With an empty stack (decision D6) it is ignored
and STACK_UNDERFLOW put out. -/
def Obligations.ReturnFromSubroutine : Prop :=
  DecodesAs 0x000E#16 0xF00F#16 (fun _ => .ret) ∧
  ∀ s : State,
    (∀ k : Fin 16, s.sp.val = k.val + 1 → ∃ t, exec .ret s = .next t ∧
      t.pc = s.stack[k] ∧ t.sp.val = k.val ∧ Frame (fun l => l = .pc ∨ l = .sp) s t) ∧
    (s.sp.val = 0 → ∃ t, exec .ret s = .next t ∧
      t.outputs = s.outputs ++ [.diagnostic (.stackUnderflow (s.pc - 2#16) s.opcode)] ∧ Frame (· = .outputs) s t)

/-- R132: JMP sets PC to NNN, zero-extended, and nothing else; a target of 0xFFF makes the next fetch fail. -/
def Obligations.JumpSetsPc : Prop :=
  DecodesAs 0x1000#16 0xF000#16 (fun op => .jmp (fieldNNN op)) ∧
  ∀ (nnn : Addr) (s : State), ∃ t, exec (.jmp nnn) s = .next t ∧
    t.pc.toNat = nnn.toNat ∧ Frame (· = .pc) s t ∧ (nnn = 0xFFF#12 → ¬ t.fetchable)

/-- R133: CALL saves PC (this instruction's address plus 2) in the next free entry and jumps. With a full stack (decision
D6) it is ignored and STACK_OVERFLOW put out. -/
def Obligations.CallSubroutine : Prop :=
  DecodesAs 0x2000#16 0xF000#16 (fun op => .call (fieldNNN op)) ∧
  ∀ (nnn : Addr) (s : State),
    (∀ k : Fin 16, s.sp.val = k.val → ∃ t, exec (.call nnn) s = .next t ∧
      t.stack[k] = s.pc ∧ t.sp.val = k.val + 1 ∧ t.pc.toNat = nnn.toNat ∧
      Frame (fun l => l = .stack k ∨ l = .sp ∨ l = .pc) s t) ∧
    (s.sp.val = 16 → ∃ t, exec (.call nnn) s = .next t ∧
      t.outputs = s.outputs ++ [.diagnostic (.stackOverflow (s.pc - 2#16) s.opcode)] ∧ Frame (· = .outputs) s t)

/-- A CALL at any depth below 16 and a RET reached with the stack as the CALL left it restore PC and SP
(95_test_vectors S3; the depth range is 90_conflicts C1). -/
def Obligations.ReturnUndoesCall : Prop :=
  ∀ (nnn : Addr) (s : State), s.sp.val < 16 → ∃ t, exec (.call nnn) s = .next t ∧
    ∀ u : State, u.stack = t.stack → u.sp = t.sp →
      ∃ w, exec .ret u = .next w ∧ w.pc = s.pc ∧ w.sp = s.sp

/-- R134 and R135: 3XNN skips one word exactly when Vx equals NN, 4XNN exactly when it differs. -/
def Obligations.SkipOnImmediate : Prop :=
  DecodesAs 0x3000#16 0xF000#16 (fun op => .seImm (fieldX op) (fieldNN op)) ∧
  DecodesAs 0x4000#16 0xF000#16 (fun op => .sneImm (fieldX op) (fieldNN op)) ∧
  ∀ (x : Nibble) (nn : Byte) (s : State),
    (∃ t, exec (.seImm x nn) s = .next t ∧ Frame (· = .pc) s t ∧
      t.pc.toNat = if s.getV x = nn then (s.pc.toNat + 2) % 65536 else s.pc.toNat) ∧
    (∃ t, exec (.sneImm x nn) s = .next t ∧ Frame (· = .pc) s t ∧
      t.pc.toNat = if s.getV x = nn then s.pc.toNat else (s.pc.toNat + 2) % 65536)

/-- R136 and R137: 5XY0 skips one word exactly when Vx equals Vy, 9XY0 exactly when they differ (the low nibble is ignored
by decision D8). -/
def Obligations.SkipOnRegisters : Prop :=
  DecodesAs 0x5000#16 0xF000#16 (fun op => .seReg (fieldX op) (fieldY op)) ∧
  DecodesAs 0x9000#16 0xF000#16 (fun op => .sneReg (fieldX op) (fieldY op)) ∧
  ∀ (x y : Nibble) (s : State),
    (∃ t, exec (.seReg x y) s = .next t ∧ Frame (· = .pc) s t ∧
      t.pc.toNat = if s.getV x = s.getV y then (s.pc.toNat + 2) % 65536 else s.pc.toNat) ∧
    (∃ t, exec (.sneReg x y) s = .next t ∧ Frame (· = .pc) s t ∧
      t.pc.toNat = if s.getV x = s.getV y then s.pc.toNat else (s.pc.toNat + 2) % 65536)

/-- R138: BNNN jumps to NNN plus V0, modulo 4096; a target of 0xFFF makes the next fetch fail. -/
def Obligations.IndexedJump : Prop :=
  DecodesAs 0xB000#16 0xF000#16 (fun op => .jmpV0 (fieldNNN op)) ∧
  ∀ (nnn : Addr) (s : State), ∃ t, exec (.jmpV0 nnn) s = .next t ∧
    t.pc.toNat = (nnn.toNat + (s.getV 0x0#4).toNat) % 4096 ∧ Frame (· = .pc) s t ∧
    (t.pc = 0xFFF#16 → ¬ t.fetchable)

/-! ### Register ALU (42_alu) -/

/-- R152 and R153: 6XNN loads NN; 7XNN adds NN modulo 256 and writes no flag. -/
def Obligations.LoadAndAddImmediate : Prop :=
  DecodesAs 0x6000#16 0xF000#16 (fun op => .ldImm (fieldX op) (fieldNN op)) ∧
  DecodesAs 0x7000#16 0xF000#16 (fun op => .addImm (fieldX op) (fieldNN op)) ∧
  ∀ (x : Nibble) (nn : Byte) (s : State),
    (∃ t, exec (.ldImm x nn) s = .next t ∧ t.getV x = nn ∧ Frame (· = .v x) s t) ∧
    (∃ t, exec (.addImm x nn) s = .next t ∧ (t.getV x).toNat = ((s.getV x).toNat + nn.toNat) % 256 ∧
      Frame (· = .v x) s t)

/-- R154 to R157: 8XY0 copies, 8XY1, 8XY2 and 8XY3 are OR, AND and XOR bit by bit; no flag is written. -/
def Obligations.CopyAndLogic : Prop :=
  (DecodesAs 0x8000#16 0xF00F#16 (fun op => .ldReg (fieldX op) (fieldY op)) ∧
   DecodesAs 0x8001#16 0xF00F#16 (fun op => .orReg (fieldX op) (fieldY op)) ∧
   DecodesAs 0x8002#16 0xF00F#16 (fun op => .andReg (fieldX op) (fieldY op)) ∧
   DecodesAs 0x8003#16 0xF00F#16 (fun op => .xorReg (fieldX op) (fieldY op))) ∧
  ∀ (x y : Nibble) (s : State),
    (∃ t, exec (.ldReg x y) s = .next t ∧ t.getV x = s.getV y ∧ Frame (· = .v x) s t) ∧
    (∃ t, exec (.orReg x y) s = .next t ∧ Frame (· = .v x) s t ∧
      ∀ k, (t.getV x).getLsbD k = ((s.getV x).getLsbD k || (s.getV y).getLsbD k)) ∧
    (∃ t, exec (.andReg x y) s = .next t ∧ Frame (· = .v x) s t ∧
      ∀ k, (t.getV x).getLsbD k = ((s.getV x).getLsbD k && (s.getV y).getLsbD k)) ∧
    (∃ t, exec (.xorReg x y) s = .next t ∧ Frame (· = .v x) s t ∧
      ∀ k, (t.getV x).getLsbD k = ((s.getV x).getLsbD k ^^ (s.getV y).getLsbD k))

/-- R158: 8XY4 writes the sum modulo 256 and the carry; with X = F the sum is what VF ends as (decision D15). -/
def Obligations.AddWithCarry : Prop :=
  DecodesAs 0x8004#16 0xF00F#16 (fun op => .addReg (fieldX op) (fieldY op)) ∧
  ∀ (x y : Nibble) (s : State), ∃ t, exec (.addReg x y) s = .next t ∧
    (t.getV x).toNat = ((s.getV x).toNat + (s.getV y).toNat) % 256 ∧
    (x ≠ 0xF#4 → FlagSays t ((s.getV x).toNat + (s.getV y).toNat > 255)) ∧
    Frame (fun l => l = .v x ∨ l = .v 0xF#4) s t

/-- R159: 8XY5 writes VF = (Vx > Vy), then Vx - Vy modulo 256 on the registers as that left them; the corners X = F and
Y = F follow from the written order (decision D15). -/
def Obligations.SubtractWithFlag : Prop :=
  DecodesAs 0x8005#16 0xF00F#16 (fun op => .subReg (fieldX op) (fieldY op)) ∧
  ∀ (x y : Nibble) (s : State), ∃ t, exec (.subReg x y) s = .next t ∧
    Frame (fun l => l = .v x ∨ l = .v 0xF#4) s t ∧
    (x ≠ 0xF#4 → FlagSays t ((s.getV x).toNat > (s.getV y).toNat)) ∧
    (x ≠ 0xF#4 → y ≠ 0xF#4 → (t.getV x).toNat = ((s.getV x).toNat + 256 - (s.getV y).toNat) % 256) ∧
    (x ≠ 0xF#4 → y = 0xF#4 → (t.getV x).toNat =
      ((s.getV x).toNat + 256 - bit ((s.getV x).toNat > (s.getV 0xF#4).toNat)) % 256) ∧
    (x = 0xF#4 → y ≠ 0xF#4 → (t.getV 0xF#4).toNat =
      (bit ((s.getV 0xF#4).toNat > (s.getV y).toNat) + 256 - (s.getV y).toNat) % 256) ∧
    (x = 0xF#4 → y = 0xF#4 → t.getV 0xF#4 = 0x00#8)

/-- R160: 8XY6 shifts Vx itself right by one, VF the bit shifted out, Vy not read; with X = F, VF ends as 0 (decision
D15). -/
def Obligations.ShiftRight : Prop :=
  DecodesAs 0x8006#16 0xF00F#16 (fun op => .shr (fieldX op) (fieldY op)) ∧
  ∀ (x y : Nibble) (s : State), ∃ t, exec (.shr x y) s = .next t ∧
    Frame (fun l => l = .v x ∨ l = .v 0xF#4) s t ∧
    (x ≠ 0xF#4 → (t.getV x).toNat = (s.getV x).toNat / 2 ∧ FlagSays t ((s.getV x).toNat % 2 = 1)) ∧
    (x = 0xF#4 → t.getV 0xF#4 = 0x00#8) ∧
    ∀ y', exec (.shr x y') s = .next t

/-- R161: 8XY7 writes VF = (Vy > Vx), then Vy - Vx modulo 256 on the registers as that left them; the corners X = F and
Y = F follow from the written order (decision D15). -/
def Obligations.ReverseSubtractWithFlag : Prop :=
  DecodesAs 0x8007#16 0xF00F#16 (fun op => .subn (fieldX op) (fieldY op)) ∧
  ∀ (x y : Nibble) (s : State), ∃ t, exec (.subn x y) s = .next t ∧
    Frame (fun l => l = .v x ∨ l = .v 0xF#4) s t ∧
    (x ≠ 0xF#4 → FlagSays t ((s.getV y).toNat > (s.getV x).toNat)) ∧
    (x ≠ 0xF#4 → y ≠ 0xF#4 → (t.getV x).toNat = ((s.getV y).toNat + 256 - (s.getV x).toNat) % 256) ∧
    (x ≠ 0xF#4 → y = 0xF#4 → (t.getV x).toNat =
      (bit ((s.getV 0xF#4).toNat > (s.getV x).toNat) + 256 - (s.getV x).toNat) % 256) ∧
    (x = 0xF#4 → y ≠ 0xF#4 → (t.getV 0xF#4).toNat =
      ((s.getV y).toNat + 256 - bit ((s.getV y).toNat > (s.getV 0xF#4).toNat)) % 256) ∧
    (x = 0xF#4 → y = 0xF#4 → t.getV 0xF#4 = 0x00#8)

/-- R162: 8XYE shifts Vx itself left by one, VF the bit shifted out, Vy not read; with X = F, VF ends as 2 or 0 (decision
D15). -/
def Obligations.ShiftLeft : Prop :=
  DecodesAs 0x800E#16 0xF00F#16 (fun op => .shl (fieldX op) (fieldY op)) ∧
  ∀ (x y : Nibble) (s : State), ∃ t, exec (.shl x y) s = .next t ∧
    Frame (fun l => l = .v x ∨ l = .v 0xF#4) s t ∧
    (x ≠ 0xF#4 → (t.getV x).toNat = (s.getV x).toNat * 2 % 256 ∧ FlagSays t ((s.getV x).toNat ≥ 128)) ∧
    (x = 0xF#4 → (t.getV 0xF#4).toNat = if (s.getV 0xF#4).toNat ≥ 128 then 2 else 0) ∧
    ∀ y', exec (.shl x y') s = .next t

/-- R163: CXNN masks the cycle's `rnd` input (decision D17), every value of it, and no other instruction reads `rnd`:
changing it changes nothing else they do. -/
def Obligations.RandomIsTheMaskedInput : Prop :=
  DecodesAs 0xC000#16 0xF000#16 (fun op => .rnd (fieldX op) (fieldNN op)) ∧
  (∀ (x : Nibble) (nn : Byte) (s : State), ∃ t, exec (.rnd x nn) s = .next t ∧ Frame (· = .v x) s t ∧
    ∀ k, (t.getV x).getLsbD k = (s.rnd.getLsbD k && nn.getLsbD k)) ∧
  ∀ (i : Instr) (s : State) (b : Byte), (∀ x nn, i ≠ .rnd x nn) →
    ∃ t, exec i s = .next t ∧ exec i { s with rnd := b } = .next { t with rnd := b }

/-! ### Address register and memory (43_index_memory) -/

/-- R180 and R181: ANNN loads I; FX1E adds Vx to I modulo 4096 and writes no flag. -/
def Obligations.LoadAndAddIndex : Prop :=
  DecodesAs 0xA000#16 0xF000#16 (fun op => .ldI (fieldNNN op)) ∧
  DecodesAs 0xF01E#16 0xF0FF#16 (fun op => .addI (fieldX op)) ∧
  (∀ (nnn : Addr) (s : State), ∃ t, exec (.ldI nnn) s = .next t ∧ t.i.toNat = nnn.toNat ∧ Frame (· = .i) s t) ∧
  ∀ (x : Nibble) (s : State), ∃ t, exec (.addI x) s = .next t ∧
    t.i.toNat = (s.i.toNat + (s.getV x).toNat) % 4096 ∧ Frame (· = .i) s t

/-- R182: FX29 sets I to 5 times Vx, or 5 times its low hexit, as the parameter `FONT_INDEX` says (decision D11); for Vx
up to 0xF the two agree, and after `initialise()` the byte there is the first of that digit's glyph. -/
def Obligations.FontAddressOfDigit : Prop :=
  DecodesAs 0xF029#16 0xF0FF#16 (fun op => .ldF (fieldX op)) ∧
  ∀ (x : Nibble) (s : State), ∃ t, exec (.ldF x) s = .next t ∧ Frame (· = .i) s t ∧
    (s.params.fontIndex = .full → t.i.toNat = (s.getV x).toNat * 5) ∧
    (s.params.fontIndex = .lowNibble → t.i.toNat = (s.getV x).toNat % 16 * 5) ∧
    ∀ d : Fin 16, (s.getV x).toNat = d.val → t.i.toNat = 5 * d.val ∧
      s.initialise.memRead (t.i.setWidth 12) = s.params.fontGlyphs[d][0]

/-- R183: FX33 writes the three decimal digits of Vx at I, I+1, I+2, wrapping at 0xFFF (decision D4), and logs them in that
order (decision D18); nothing else changes. -/
def Obligations.StoreDecimalDigits : Prop :=
  DecodesAs 0xF033#16 0xF0FF#16 (fun op => .ldB (fieldX op)) ∧
  ∀ (x : Nibble) (s : State), ∃ t, exec (.ldB x) s = .next t ∧
    (t.memRead (BitVec.ofNat 12 s.i.toNat)).toNat = (s.getV x).toNat / 100 ∧
    (t.memRead (BitVec.ofNat 12 (s.i.toNat + 1))).toNat = (s.getV x).toNat / 10 % 10 ∧
    (t.memRead (BitVec.ofNat 12 (s.i.toNat + 2))).toNat = (s.getV x).toNat % 10 ∧
    t.log = s.log ++ [(s.dataAddr 0, t.memRead (s.dataAddr 0)), (s.dataAddr 1, t.memRead (s.dataAddr 1)),
      (s.dataAddr 2, t.memRead (s.dataAddr 2))] ∧
    Frame (fun l => (∃ k < 3, l = .byte (s.dataAddr k)) ∨ l = .log) s t

/-- R184: FX55 stores V0..Vx at I, wrapping at 0xFFF (decision D4), one log entry each, ascending (decision D18); I and
everything else is unchanged. -/
def Obligations.StoreRegisters : Prop :=
  DecodesAs 0xF055#16 0xF0FF#16 (fun op => .ldMemVx (fieldX op)) ∧
  ∀ (x : Nibble) (s : State), ∃ t, exec (.ldMemVx x) s = .next t ∧
    (∀ r : Nibble, r.toNat ≤ x.toNat → t.memRead (BitVec.ofNat 12 (s.i.toNat + r.toNat)) = s.getV r) ∧
    t.log = s.log ++ (List.range (x.toNat + 1)).map (fun r => (s.dataAddr r, s.getV (BitVec.ofNat 4 r))) ∧
    Frame (fun l => (∃ r : Nibble, r.toNat ≤ x.toNat ∧ l = .byte (s.dataAddr r.toNat)) ∨ l = .log) s t

/-- R185: FX65 loads V0..Vx from I, wrapping at 0xFFF (decision D4); I, the log and everything else is unchanged. -/
def Obligations.LoadRegisters : Prop :=
  DecodesAs 0xF065#16 0xF0FF#16 (fun op => .ldVxMem (fieldX op)) ∧
  ∀ (x : Nibble) (s : State), ∃ t, exec (.ldVxMem x) s = .next t ∧
    (∀ r : Nibble, r.toNat ≤ x.toNat → t.getV r = s.memRead (BitVec.ofNat 12 (s.i.toNat + r.toNat))) ∧
    Frame (fun l => ∃ r : Nibble, r.toNat ≤ x.toNat ∧ l = .v r) s t

/-- R186 (derived there): storing V0..Vx and loading them back at the same I, the stored bytes unwritten in between, gives
the registers back, whatever else happened between. -/
def Obligations.LoadAfterStoreRestoresRegisters : Prop :=
  ∀ (x : Nibble) (s : State), ∃ t, exec (.ldMemVx x) s = .next t ∧
    ∀ u : State, u.i = t.i →
      (∀ r : Nibble, r.toNat ≤ x.toNat → u.memRead (u.dataAddr r.toNat) = t.memRead (u.dataAddr r.toNat)) →
      ∃ w, exec (.ldVxMem x) u = .next w ∧ ∀ r : Nibble, r.toNat ≤ x.toNat → w.getV r = s.getV r

/-! ### Display (44_display) -/

/-- R201: CLS turns every pixel off and does nothing else (bits 11:4 are ignored by decision D9). -/
def Obligations.ClearDisplay : Prop :=
  DecodesAs 0x0000#16 0xF00F#16 (fun _ => .cls) ∧
  ∀ s : State, ∃ t, exec .cls s = .next t ∧ (∀ x y, Screen.get t.pix x y = false) ∧
    Frame (fun l => ∃ x y, l = .pixel x y) s t

/-- R202: DXYN flips exactly the pixels under a set sprite bit, wrapping on both axes, and VF says whether one of them was
on. Bit 7 is leftmost (R203, decision D13), the position is read before VF is written (decision D14), addresses wrap
(decision D4). The loop of the rule is stated here in closed form. -/
def Obligations.DrawSpriteFlipsItsPixels : Prop :=
  DecodesAs 0xD000#16 0xF000#16 (fun op => .drw (fieldX op) (fieldY op) (fieldN op)) ∧
  ∀ (x y n : Nibble) (s : State), ∃ t, exec (.drw x y n) s = .next t ∧
    (∀ px py, spriteBit s (s.getV x) (s.getV y) n.toNat px py →
      Screen.get t.pix px py = !Screen.get s.pix px py) ∧
    FlagSays t (∃ px py, spriteBit s (s.getV x) (s.getV y) n.toNat px py ∧ Screen.get s.pix px py = true) ∧
    Frame (fun l => l = .v 0xF#4 ∨
      ∃ px py, l = .pixel px py ∧ spriteBit s (s.getV x) (s.getV y) n.toNat px py) s t

/-- Drawing the same sprite again at the same place restores every pixel, and VF is 1 then exactly when the sprite has a
set bit whose pixel the first draw turned on (95_test_vectors S6; 90_conflicts C10). Where the sprite's bits lie rests on
bit 7 being leftmost (R203, decision D13, log entry 15) and on the address wrap (R52, decision D4, log entry 10). -/
def Obligations.RedrawRestoresTheDisplay : Prop :=
  ∀ (x y n : Nibble) (s t u w : State), exec (.drw x y n) s = .next t →
    u.pix = t.pix → u.i = s.i → (∀ a, u.memRead a = s.memRead a) →
    u.getV x = s.getV x → u.getV y = s.getV y → exec (.drw x y n) u = .next w →
    w.pix = s.pix ∧
    FlagSays w (∃ px py, spriteBit s (s.getV x) (s.getV y) n.toNat px py ∧ Screen.get s.pix px py = false)

/-! ### Keypad (45_keypad) and timers (46_timers, 60_exceptions) -/

/-- R215, R216 and R218: EX9E skips when the key numbered Vx is held, EXA1 when it is not; a number above 0xF raises
KEY_RANGE with no skip (decision D7). -/
def Obligations.SkipOnKeyState : Prop :=
  DecodesAs 0xE09E#16 0xF0FF#16 (fun op => .skp (fieldX op)) ∧
  DecodesAs 0xE0A1#16 0xF0FF#16 (fun op => .sknp (fieldX op)) ∧
  ∀ (x : Nibble) (s : State),
    (∀ k : Fin 16, (s.getV x).toNat = k.val →
      (∃ t, exec (.skp x) s = .next t ∧ Frame (· = .pc) s t ∧
        t.pc.toNat = if s.key[k] = true then (s.pc.toNat + 2) % 65536 else s.pc.toNat) ∧
      (∃ t, exec (.sknp x) s = .next t ∧ Frame (· = .pc) s t ∧
        t.pc.toNat = if s.key[k] = true then s.pc.toNat else (s.pc.toNat + 2) % 65536)) ∧
    ((s.getV x).toNat > 0xF → ∃ t, exec (.skp x) s = .next t ∧ exec (.sknp x) s = .next t ∧
      t.outputs = s.outputs ++ [.diagnostic (.keyRange (s.pc - 2#16) s.opcode (s.getV x))] ∧
      Frame (· = .outputs) s t)

/-- R217: FX0A stores the last key in Vx (decision D10), or moves PC back by 2 when there is none, so that it runs again. -/
def Obligations.WaitForKey : Prop :=
  DecodesAs 0xF00A#16 0xF0FF#16 (fun op => .ldVxK (fieldX op)) ∧
  ∀ (x : Nibble) (s : State),
    (∀ k : Fin 16, s.lastKey = some k → ∃ t, exec (.ldVxK x) s = .next t ∧
      (t.getV x).toNat = k.val ∧ Frame (· = .v x) s t) ∧
    (s.lastKey = none → ∃ t, exec (.ldVxK x) s = .next t ∧
      t.pc.toNat = (s.pc.toNat + 65534) % 65536 ∧ Frame (· = .pc) s t)

/-- R230 and R231: FX07 reads the delay timer, FX15 sets it. -/
def Obligations.DelayTimerRegister : Prop :=
  DecodesAs 0xF007#16 0xF0FF#16 (fun op => .ldVxDt (fieldX op)) ∧
  DecodesAs 0xF015#16 0xF0FF#16 (fun op => .ldDt (fieldX op)) ∧
  ∀ (x : Nibble) (s : State),
    (∃ t, exec (.ldVxDt x) s = .next t ∧ t.getV x = s.dt ∧ Frame (· = .v x) s t) ∧
    (∃ t, exec (.ldDt x) s = .next t ∧ t.dt = s.getV x ∧ Frame (· = .dt) s t ∧
      (s.getV x = 0x00#8 → t.tickDelayTimer = t))

/-- R232: FX18 sets the sound timer, which no instruction reads (decision D23). -/
def Obligations.SoundTimerRegister : Prop :=
  DecodesAs 0xF018#16 0xF0FF#16 (fun op => .ldSt (fieldX op)) ∧
  (∀ (x : Nibble) (s : State), ∃ t, exec (.ldSt x) s = .next t ∧ t.st = s.getV x ∧ Frame (· = .st) s t) ∧
  ∀ (i : Instr) (s : State) (b : Byte), ∃ t, exec i s = .next t ∧ ∃ t', exec i { s with st := b } = .next t' ∧
    { t' with st := t.st } = t

/-- R249, R252 and R253: the timers count down by explicit ticks, one at a time, never below 0; a tick changes its own
timer alone and puts nothing out, the sound timer's too (decision D23, log entry 22); a cycle changes DT only by FX15 and ST
only by FX18. -/
def Obligations.TimersMoveOnlyByTicksAndSetters : Prop :=
  (∀ (s t : State) (held : Config.Keys) (rnd : Byte), s.cycle held rnd = .next t →
    ((∀ x, decode s.fetchWord ≠ .ok (.ldDt x)) → t.dt = s.dt) ∧
    ((∀ x, decode s.fetchWord ≠ .ok (.ldSt x)) → t.st = s.st)) ∧
  ∀ s : State, s.life ≠ .uninitialized →
    (∃ t, s.perform .tickDelayTimer = .next t ∧ t.dt.toNat = s.dt.toNat - 1 ∧ Frame (· = .dt) s t) ∧
    (∃ t, s.perform .tickSoundTimer = .next t ∧ t.st.toNat = s.st.toNat - 1 ∧ Frame (· = .st) s t)

/-! ### Who writes what (10_state, 20_memory) -/

/-- R23 (derived there): an instruction writes no general register but those the rule names for it. -/
def Obligations.RegistersWrittenOnlyAsNamed : Prop :=
  ∀ (i : Instr) (s t : State) (r : Nibble), exec i s = .next t → ¬ writesV i r → t.getV r = s.getV r

/-- R24, and R25 (derived there): only ANNN, FX1E and FX29 write I, and what they write is below 0x1000, so bits 15:12 of
I read 0 after every step that starts so. -/
def Obligations.IndexStaysTwelveBits : Prop :=
  (∀ (i : Instr) (s t : State), exec i s = .next t →
    ((∀ nnn, i ≠ .ldI nnn) → (∀ x, i ≠ .addI x) → (∀ x, i ≠ .ldF x) → t.i = s.i) ∧
    (t.i ≠ s.i → t.i.toNat < 0x1000)) ∧
  ∀ (s : State) (w : Word), (s.setI w).i.toNat = w.toNat % 4096

/-- R29, R57 and R200: only CALL and RET reach the stack, only FX33 and FX55 write memory and its change log, only CLS and
DXYN write the display, and no instruction writes the keypad, OPCODE or the lifecycle (R40). -/
def Obligations.OnlyTheNamedInstructionsWrite : Prop :=
  ∀ (i : Instr) (s t : State), exec i s = .next t →
    ((∀ nnn, i ≠ .call nnn) → t.stack = s.stack) ∧
    ((∀ nnn, i ≠ .call nnn) → i ≠ .ret → t.sp = s.sp) ∧
    ((∀ x, i ≠ .ldB x) → (∀ x, i ≠ .ldMemVx x) → t.log = s.log ∧ ∀ a, t.memRead a = s.memRead a) ∧
    (i ≠ .cls → (∀ x y n, i ≠ .drw x y n) → t.pix = s.pix) ∧
    t.key = s.key ∧ t.lastKey = s.lastKey ∧ t.opcode = s.opcode ∧ t.life = s.life

/-- R54 and R55: the change log tells all: what a cycle appends to it, replayed over memory before the cycle, gives memory
after it. -/
def Obligations.ChangeLogReplaysMemory : Prop :=
  ∀ (s t : State) (held : Config.Keys) (rnd : Byte), s.cycle held rnd = .next t →
    ∃ changes, t.log = s.log ++ changes ∧ ∀ a, t.memRead a = replay s.memRead changes a

/-- R38: no instruction reads the change log: with another log before, the same happens, and the same entries are added. -/
def Obligations.ChangeLogIsNeverRead : Prop :=
  ∀ (i : Instr) (s : State), ∃ t changes, exec i s = .next t ∧ t.log = s.log ++ changes ∧
    ∀ log, exec i { s with log := log } = .next { t with log := log ++ changes }

/-! ### The host's operations (20_memory, 70_reset_and_hazards) -/

/-- R56: draining hands out the log in write order and clears it, and changes nothing else of the block. -/
def Obligations.DrainHandsOutAndClears : Prop :=
  ∀ s : State, s.life ≠ .uninitialized → ∃ t, s.perform .drainChanges = .next t ∧
    t.log = [] ∧ t.outputs = s.outputs ++ [.drained s.log] ∧ Frame (fun l => l = .log ∨ l = .outputs) s t

/-- R271 and R272 (decisions D16, D22): `initialise()` gives the reset values from any state, so doing it twice is doing it
once; memory is the font (parameter `FONT_GLYPHS`) and zeros. -/
def Obligations.InitialiseGivesTheResetValues : Prop :=
  ∀ s : State, ∃ t, s.perform .initialise = .next t ∧ t.perform .initialise = .next t ∧
    t.life = .initialised ∧ t.log = [] ∧ (∀ r, t.getV r = 0x00#8) ∧ t.i = 0x000#16 ∧ t.pc = 0x200#16 ∧
    (∀ k : Fin 16, t.stack[k] = 0x0000#16) ∧ t.sp.val = 0 ∧ t.dt = 0x00#8 ∧ t.st = 0x00#8 ∧
    (∀ x y, Screen.get t.pix x y = false) ∧ (∀ k : Fin 16, t.key[k] = false) ∧ t.lastKey = none ∧
    t.opcode = 0x0000#16 ∧
    (∀ (d : Fin 16) (k : Fin 5), t.memRead (BitVec.ofNat 12 (5 * d.val + k.val)) = s.params.fontGlyphs[d][k]) ∧
    (∀ a : Addr, 0x050 ≤ a.toNat → t.memRead a = 0x00#8) ∧
    t.outputs = s.outputs ∧ t.params = s.params ∧ t.pending = s.pending

/-- R273 and R274 (decisions D16, D26, D27): a ROM of at most 3584 bytes is copied to 0x200, unlogged, over an initialised
block, which becomes ready; a longer one leaves the block initialised and not ready, with no byte copied. -/
def Obligations.LoadRomOrRomTooLarge : Prop :=
  ∀ (s : State) (bytes : List Byte) (name : String), ∃ t, s.perform (.loadRom bytes name) = .next t ∧
    (bytes.length ≤ 3584 →
      t.life = .ready ∧ t.outputs = s.outputs ++ [.romLoaded name, .loadResult .ok] ∧
      (∀ j (h : j < bytes.length), t.memRead (BitVec.ofNat 12 (0x200 + j)) = bytes[j]) ∧
      (∀ a : Addr, a.toNat < 0x200 ∨ 0x200 + bytes.length ≤ a.toNat → t.memRead a = s.initialise.memRead a) ∧
      Frame (fun l => l = .life ∨ l = .outputs ∨ ∃ a, l = .byte a) s.initialise t) ∧
    (3584 < bytes.length →
      t.outputs = s.outputs ++ [.loadResult (.romTooLarge bytes.length)] ∧ Frame (· = .outputs) s.initialise t)

/-- R270 (decision D2): before the first `initialise()` a tick, a drain and an accessor are refused by name, a cycle does
nothing, and `initialise()` and `load_rom()` work. -/
def Obligations.BeforeInitialise : Prop :=
  ∀ s : State, s.life = .uninitialized →
    s.perform .tickDelayTimer = .refused (.beforeInitialise .tickDelayTimer) ∧
    s.perform .tickSoundTimer = .refused (.beforeInitialise .tickSoundTimer) ∧
    s.perform .drainChanges = .refused (.beforeInitialise .drainChanges) ∧
    (∀ a, s.perform (.access a) = .refused (.beforeInitialise (.access a))) ∧
    (∀ held rnd, s.perform (.cycle held rnd) = .next s) ∧
    (∃ t, s.perform .initialise = .next t ∧ t.life = .initialised) ∧
    ∀ bytes name, ∃ t, s.perform (.loadRom bytes name) = .next t ∧ t.life ≠ .uninitialized

/-- R45: an accessor hands out the field it names and changes no state of the block. Which fields have one (LIFE has none)
is the model's choice (log entry 25). -/
def Obligations.AccessorsOnlyRead : Prop :=
  ∀ (s : State) (a : Accessor), s.life ≠ .uninitialized → ∃ t v, s.perform (.access a) = .next t ∧
    t.outputs = s.outputs ++ [.accessed v] ∧ Frame (· = .outputs) s t ∧
    (a = .registers → v = .registers s.v) ∧ (a = .addressRegister → v = .addressRegister s.i) ∧
    (a = .programCounter → v = .programCounter s.pc) ∧ (a = .stackPointer → v = .stackPointer s.sp) ∧
    (a = .stack → v = .stack s.stack) ∧ (a = .delayTimer → v = .delayTimer s.dt) ∧
    (a = .soundTimer → v = .soundTimer s.st) ∧ (a = .displayBuffer → v = .displayBuffer s.pix) ∧
    (∀ m, a = .memory m → v = .memory (s.memRead m))

/-! ### Invariants -/

/-- Every step keeps: memory in its canonical form; I below 0x1000 (R24); PC at most 0x1002 and every stack entry at most
0x1000 (R28, derived there); LASTKEY a held key (R106); both timers 0 until a program is loaded (R252, R253). -/
def Obligations.StepKeepsTheInvariant : Prop :=
  ∀ s t : State, s.Inv → step s = .next t → t.Inv

/-- The reset state meets the invariant, and so does every state `initialise()` makes. -/
def Obligations.ResetMeetsTheInvariant : Prop :=
  State.reset.Inv ∧ ∀ s : State, s.initialise.Inv

/-- The places a frame speaks of are the whole state: two states with canonical memories that agree at every place are
equal. -/
def Obligations.PlacesAreTheWholeState : Prop :=
  ∀ s t : State, Memory.wf (resetByte s.params) s.mem → Memory.wf (resetByte t.params) t.mem →
    Frame (fun _ => False) s t → t = s
end

