-- ==== Sys2Proof/Laws/Decode.lean ====
section
/-! SUPPORT. The fields of the words the encoder builds, and bytes and words. -/

namespace Sys2Proof

theorem fieldK_toNat (op : Word) : (fieldK op).toNat = op.toNat / 4096 := by
  have := op.isLt
  simp only [fieldK, BitVec.extractLsb'_toNat, Nat.shiftRight_eq_div_pow]
  omega

theorem fieldX_toNat (op : Word) : (fieldX op).toNat = op.toNat / 256 % 16 := by
  simp only [fieldX, BitVec.extractLsb'_toNat, Nat.shiftRight_eq_div_pow]

theorem fieldY_toNat (op : Word) : (fieldY op).toNat = op.toNat / 16 % 16 := by
  simp only [fieldY, BitVec.extractLsb'_toNat, Nat.shiftRight_eq_div_pow]

theorem fieldN_toNat (op : Word) : (fieldN op).toNat = op.toNat % 16 := by
  simp [fieldN, BitVec.extractLsb'_toNat]

theorem fieldNN_toNat (op : Word) : (fieldNN op).toNat = op.toNat % 256 := by
  simp [fieldNN, BitVec.extractLsb'_toNat]

theorem fieldNNN_toNat (op : Word) : (fieldNNN op).toNat = op.toNat % 4096 := by
  simp [fieldNNN, BitVec.extractLsb'_toNat]

theorem append_toNat {m n : Nat} (hi : BitVec m) (lo : BitVec n) :
    (hi ++ lo).toNat = hi.toNat * 2 ^ n + lo.toNat := by
  rw [BitVec.toNat_append, Nat.shiftLeft_eq, Nat.mul_comm, Nat.two_pow_add_eq_or_of_lt lo.isLt, Nat.mul_comm]

theorem wordA_toNat (k : Nibble) (nnn : Addr) : (wordA k nnn).toNat = k.toNat * 4096 + nnn.toNat :=
  append_toNat k nnn

theorem wordXNN_toNat (k x : Nibble) (nn : Byte) :
    (wordXNN k x nn).toNat = k.toNat * 4096 + x.toNat * 256 + nn.toNat := by
  show (k ++ (x ++ nn)).toNat = _
  rw [append_toNat, append_toNat]
  omega

theorem wordXYN_toNat (k x y n : Nibble) :
    (wordXYN k x y n).toNat = k.toNat * 4096 + x.toNat * 256 + y.toNat * 16 + n.toNat := by
  show (k ++ (x ++ (y ++ n))).toNat = _
  rw [append_toNat, append_toNat, append_toNat]
  omega

theorem wordOfBytes_toNat (hi lo : Byte) : (wordOfBytes hi lo).toNat = hi.toNat * 256 + lo.toNat :=
  append_toNat hi lo

theorem firstByte_toNat (op : Word) : (firstByte op).toNat = op.toNat / 256 := by
  have := op.isLt
  simp only [firstByte, BitVec.extractLsb'_toNat, Nat.shiftRight_eq_div_pow]
  omega

theorem secondByte_toNat (op : Word) : (secondByte op).toNat = op.toNat % 256 := by
  simp [secondByte, BitVec.extractLsb'_toNat]

/-- The two bytes of a word, laid out and read back in the hardware's order (R58). -/
@[simp] theorem wordOfBytes_firstByte_secondByte (op : Word) : wordOfBytes (firstByte op) (secondByte op) = op := by
  apply BitVec.eq_of_toNat_eq
  rw [wordOfBytes_toNat, firstByte_toNat, secondByte_toNat]
  omega

/-! ### Masks -/

theorem fieldK_and (a b : Word) : fieldK (a &&& b) = fieldK a &&& fieldK b := BitVec.extractLsb'_and ..
theorem fieldX_and (a b : Word) : fieldX (a &&& b) = fieldX a &&& fieldX b := BitVec.extractLsb'_and ..
theorem fieldY_and (a b : Word) : fieldY (a &&& b) = fieldY a &&& fieldY b := BitVec.extractLsb'_and ..
theorem fieldN_and (a b : Word) : fieldN (a &&& b) = fieldN a &&& fieldN b := BitVec.extractLsb'_and ..
theorem fieldNN_and (a b : Word) : fieldNN (a &&& b) = fieldNN a &&& fieldNN b := BitVec.extractLsb'_and ..

theorem nibble_and_ones (a : Nibble) : a &&& 0xF#4 = a := BitVec.and_allOnes
theorem byte_and_ones (a : Byte) : a &&& 0xFF#8 = a := BitVec.and_allOnes

/-- What a mask over the key and a match say: the key. -/
theorem fieldK_of_mask {op m mask : Word} (h : op &&& mask = m) (hm : fieldK mask = 0xF#4) : fieldK op = fieldK m := by
  rw [← h, fieldK_and, hm, nibble_and_ones]

/-- What a mask over the low nibble and a match say: the low nibble. -/
theorem fieldN_of_mask {op m mask : Word} (h : op &&& mask = m) (hm : fieldN mask = 0xF#4) : fieldN op = fieldN m := by
  rw [← h, fieldN_and, hm, nibble_and_ones]

/-- What a mask over the low byte and a match say: the low byte. -/
theorem fieldNN_of_mask {op m mask : Word} (h : op &&& mask = m) (hm : fieldNN mask = 0xFF#8) :
    fieldNN op = fieldNN m := by
  rw [← h, fieldNN_and, hm, byte_and_ones]

/-- A word is its four hexits. -/
theorem word_ext {a b : Word} (hk : fieldK a = fieldK b) (hx : fieldX a = fieldX b) (hy : fieldY a = fieldY b)
    (hn : fieldN a = fieldN b) : a = b := by
  apply BitVec.eq_of_toNat_eq
  have hk := congrArg BitVec.toNat hk
  have hx := congrArg BitVec.toNat hx
  have hy := congrArg BitVec.toNat hy
  have hn := congrArg BitVec.toNat hn
  rw [fieldK_toNat, fieldK_toNat] at hk
  rw [fieldX_toNat, fieldX_toNat] at hx
  rw [fieldY_toNat, fieldY_toNat] at hy
  rw [fieldN_toNat, fieldN_toNat] at hn
  omega

section
variable (k x y n : Nibble) (nn : Byte) (nnn : Addr)

@[simp] theorem fieldK_wordA : fieldK (wordA k nnn) = k := by
  apply BitVec.eq_of_toNat_eq
  rw [fieldK_toNat, wordA_toNat]
  have := nnn.isLt; omega

@[simp] theorem fieldNNN_wordA : fieldNNN (wordA k nnn) = nnn := by
  apply BitVec.eq_of_toNat_eq
  rw [fieldNNN_toNat, wordA_toNat]
  have := nnn.isLt; omega

@[simp] theorem fieldK_wordXNN : fieldK (wordXNN k x nn) = k := by
  apply BitVec.eq_of_toNat_eq
  rw [fieldK_toNat, wordXNN_toNat]
  have := nn.isLt; have := x.isLt; omega

@[simp] theorem fieldX_wordXNN : fieldX (wordXNN k x nn) = x := by
  apply BitVec.eq_of_toNat_eq
  rw [fieldX_toNat, wordXNN_toNat]
  have := nn.isLt; have := x.isLt; omega

@[simp] theorem fieldNN_wordXNN : fieldNN (wordXNN k x nn) = nn := by
  apply BitVec.eq_of_toNat_eq
  rw [fieldNN_toNat, wordXNN_toNat]
  have := nn.isLt; omega

/-- The two low hexits of an XNN word are those of its low byte. -/
theorem fieldY_wordXNN : fieldY (wordXNN k x nn) = nn.extractLsb' 4 4 := by
  apply BitVec.eq_of_toNat_eq
  rw [fieldY_toNat, wordXNN_toNat, BitVec.extractLsb'_toNat, Nat.shiftRight_eq_div_pow]
  have := nn.isLt; omega

theorem fieldN_wordXNN : fieldN (wordXNN k x nn) = nn.extractLsb' 0 4 := by
  apply BitVec.eq_of_toNat_eq
  rw [fieldN_toNat, wordXNN_toNat, BitVec.extractLsb'_toNat, Nat.shiftRight_eq_div_pow]
  omega

@[simp] theorem fieldK_wordXYN : fieldK (wordXYN k x y n) = k := by
  apply BitVec.eq_of_toNat_eq
  rw [fieldK_toNat, wordXYN_toNat]
  have := x.isLt; have := y.isLt; have := n.isLt; omega

@[simp] theorem fieldX_wordXYN : fieldX (wordXYN k x y n) = x := by
  apply BitVec.eq_of_toNat_eq
  rw [fieldX_toNat, wordXYN_toNat]
  have := x.isLt; have := y.isLt; have := n.isLt; omega

@[simp] theorem fieldY_wordXYN : fieldY (wordXYN k x y n) = y := by
  apply BitVec.eq_of_toNat_eq
  rw [fieldY_toNat, wordXYN_toNat]
  have := y.isLt; have := n.isLt; omega

@[simp] theorem fieldN_wordXYN : fieldN (wordXYN k x y n) = n := by
  apply BitVec.eq_of_toNat_eq
  rw [fieldN_toNat, wordXYN_toNat]
  have := n.isLt; omega

end

/-! ### The decoder, key by key (R96) -/

theorem decode_key0 {op : Word} (h : fieldK op = 0x0#4) : decode op = decodeKey0 op := by simp [decode, h]
theorem decode_key1 {op : Word} (h : fieldK op = 0x1#4) : decode op = .ok (.jmp (fieldNNN op)) := by simp [decode, h]
theorem decode_key2 {op : Word} (h : fieldK op = 0x2#4) : decode op = .ok (.call (fieldNNN op)) := by simp [decode, h]
theorem decode_key3 {op : Word} (h : fieldK op = 0x3#4) : decode op = .ok (.seImm (fieldX op) (fieldNN op)) := by simp [decode, h]
theorem decode_key4 {op : Word} (h : fieldK op = 0x4#4) : decode op = .ok (.sneImm (fieldX op) (fieldNN op)) := by simp [decode, h]
theorem decode_key5 {op : Word} (h : fieldK op = 0x5#4) : decode op = .ok (.seReg (fieldX op) (fieldY op)) := by simp [decode, h]
theorem decode_key6 {op : Word} (h : fieldK op = 0x6#4) : decode op = .ok (.ldImm (fieldX op) (fieldNN op)) := by simp [decode, h]
theorem decode_key7 {op : Word} (h : fieldK op = 0x7#4) : decode op = .ok (.addImm (fieldX op) (fieldNN op)) := by simp [decode, h]
theorem decode_key8 {op : Word} (h : fieldK op = 0x8#4) : decode op = decodeKey8 op := by simp [decode, h]
theorem decode_key9 {op : Word} (h : fieldK op = 0x9#4) : decode op = .ok (.sneReg (fieldX op) (fieldY op)) := by simp [decode, h]
theorem decode_keyA {op : Word} (h : fieldK op = 0xA#4) : decode op = .ok (.ldI (fieldNNN op)) := by simp [decode, h]
theorem decode_keyB {op : Word} (h : fieldK op = 0xB#4) : decode op = .ok (.jmpV0 (fieldNNN op)) := by simp [decode, h]
theorem decode_keyC {op : Word} (h : fieldK op = 0xC#4) : decode op = .ok (.rnd (fieldX op) (fieldNN op)) := by simp [decode, h]
theorem decode_keyD {op : Word} (h : fieldK op = 0xD#4) : decode op = .ok (.drw (fieldX op) (fieldY op) (fieldN op)) := by simp [decode, h]
theorem decode_keyE {op : Word} (h : fieldK op = 0xE#4) : decode op = decodeKeyE op := by simp [decode, h]
theorem decode_keyF {op : Word} (h : fieldK op = 0xF#4) : decode op = decodeKeyF op := by simp [decode, h]

end Sys2Proof
end

