-- ==== Sys2Proof/Laws/State.lean ====
section
/-! SUPPORT. What each update of the state does to each field, true by definition, so that no later proof unfolds a record
update: one lemma per field per update, the fields in the order of the structure. -/

namespace Sys2Proof.Machine

/-! ### `memWrite` -/

@[simp] theorem State.memWrite_life (s : State) (a : Addr) (w : Byte) : (s.memWrite a w).life = s.life := rfl
@[simp] theorem State.memWrite_mem (s : State) (a : Addr) (w : Byte) : (s.memWrite a w).mem = Memory.write (resetByte s.params) s.mem a.toNat w := rfl
@[simp] theorem State.memWrite_log (s : State) (a : Addr) (w : Byte) : (s.memWrite a w).log = s.log ++ [(a, w)] := rfl
@[simp] theorem State.memWrite_v (s : State) (a : Addr) (w : Byte) : (s.memWrite a w).v = s.v := rfl
@[simp] theorem State.memWrite_i (s : State) (a : Addr) (w : Byte) : (s.memWrite a w).i = s.i := rfl
@[simp] theorem State.memWrite_pc (s : State) (a : Addr) (w : Byte) : (s.memWrite a w).pc = s.pc := rfl
@[simp] theorem State.memWrite_stack (s : State) (a : Addr) (w : Byte) : (s.memWrite a w).stack = s.stack := rfl
@[simp] theorem State.memWrite_sp (s : State) (a : Addr) (w : Byte) : (s.memWrite a w).sp = s.sp := rfl
@[simp] theorem State.memWrite_dt (s : State) (a : Addr) (w : Byte) : (s.memWrite a w).dt = s.dt := rfl
@[simp] theorem State.memWrite_st (s : State) (a : Addr) (w : Byte) : (s.memWrite a w).st = s.st := rfl
@[simp] theorem State.memWrite_pix (s : State) (a : Addr) (w : Byte) : (s.memWrite a w).pix = s.pix := rfl
@[simp] theorem State.memWrite_key (s : State) (a : Addr) (w : Byte) : (s.memWrite a w).key = s.key := rfl
@[simp] theorem State.memWrite_lastKey (s : State) (a : Addr) (w : Byte) : (s.memWrite a w).lastKey = s.lastKey := rfl
@[simp] theorem State.memWrite_opcode (s : State) (a : Addr) (w : Byte) : (s.memWrite a w).opcode = s.opcode := rfl
@[simp] theorem State.memWrite_rnd (s : State) (a : Addr) (w : Byte) : (s.memWrite a w).rnd = s.rnd := rfl
@[simp] theorem State.memWrite_draws (s : State) (a : Addr) (w : Byte) : (s.memWrite a w).draws = s.draws := rfl
@[simp] theorem State.memWrite_params (s : State) (a : Addr) (w : Byte) : (s.memWrite a w).params = s.params := rfl
@[simp] theorem State.memWrite_pending (s : State) (a : Addr) (w : Byte) : (s.memWrite a w).pending = s.pending := rfl
@[simp] theorem State.memWrite_outputs (s : State) (a : Addr) (w : Byte) : (s.memWrite a w).outputs = s.outputs := rfl

/-! ### `setV` -/

@[simp] theorem State.setV_life (s : State) (r : Nibble) (b : Byte) : (s.setV r b).life = s.life := rfl
@[simp] theorem State.setV_mem (s : State) (r : Nibble) (b : Byte) : (s.setV r b).mem = s.mem := rfl
@[simp] theorem State.setV_log (s : State) (r : Nibble) (b : Byte) : (s.setV r b).log = s.log := rfl
@[simp] theorem State.setV_i (s : State) (r : Nibble) (b : Byte) : (s.setV r b).i = s.i := rfl
@[simp] theorem State.setV_pc (s : State) (r : Nibble) (b : Byte) : (s.setV r b).pc = s.pc := rfl
@[simp] theorem State.setV_stack (s : State) (r : Nibble) (b : Byte) : (s.setV r b).stack = s.stack := rfl
@[simp] theorem State.setV_sp (s : State) (r : Nibble) (b : Byte) : (s.setV r b).sp = s.sp := rfl
@[simp] theorem State.setV_dt (s : State) (r : Nibble) (b : Byte) : (s.setV r b).dt = s.dt := rfl
@[simp] theorem State.setV_st (s : State) (r : Nibble) (b : Byte) : (s.setV r b).st = s.st := rfl
@[simp] theorem State.setV_pix (s : State) (r : Nibble) (b : Byte) : (s.setV r b).pix = s.pix := rfl
@[simp] theorem State.setV_key (s : State) (r : Nibble) (b : Byte) : (s.setV r b).key = s.key := rfl
@[simp] theorem State.setV_lastKey (s : State) (r : Nibble) (b : Byte) : (s.setV r b).lastKey = s.lastKey := rfl
@[simp] theorem State.setV_opcode (s : State) (r : Nibble) (b : Byte) : (s.setV r b).opcode = s.opcode := rfl
@[simp] theorem State.setV_rnd (s : State) (r : Nibble) (b : Byte) : (s.setV r b).rnd = s.rnd := rfl
@[simp] theorem State.setV_draws (s : State) (r : Nibble) (b : Byte) : (s.setV r b).draws = s.draws := rfl
@[simp] theorem State.setV_params (s : State) (r : Nibble) (b : Byte) : (s.setV r b).params = s.params := rfl
@[simp] theorem State.setV_pending (s : State) (r : Nibble) (b : Byte) : (s.setV r b).pending = s.pending := rfl
@[simp] theorem State.setV_outputs (s : State) (r : Nibble) (b : Byte) : (s.setV r b).outputs = s.outputs := rfl

/-! ### `setI` -/

@[simp] theorem State.setI_life (s : State) (w : Word) : (s.setI w).life = s.life := rfl
@[simp] theorem State.setI_mem (s : State) (w : Word) : (s.setI w).mem = s.mem := rfl
@[simp] theorem State.setI_log (s : State) (w : Word) : (s.setI w).log = s.log := rfl
@[simp] theorem State.setI_v (s : State) (w : Word) : (s.setI w).v = s.v := rfl
@[simp] theorem State.setI_i (s : State) (w : Word) : (s.setI w).i = w &&& 0x0FFF#16 := rfl
@[simp] theorem State.setI_pc (s : State) (w : Word) : (s.setI w).pc = s.pc := rfl
@[simp] theorem State.setI_stack (s : State) (w : Word) : (s.setI w).stack = s.stack := rfl
@[simp] theorem State.setI_sp (s : State) (w : Word) : (s.setI w).sp = s.sp := rfl
@[simp] theorem State.setI_dt (s : State) (w : Word) : (s.setI w).dt = s.dt := rfl
@[simp] theorem State.setI_st (s : State) (w : Word) : (s.setI w).st = s.st := rfl
@[simp] theorem State.setI_pix (s : State) (w : Word) : (s.setI w).pix = s.pix := rfl
@[simp] theorem State.setI_key (s : State) (w : Word) : (s.setI w).key = s.key := rfl
@[simp] theorem State.setI_lastKey (s : State) (w : Word) : (s.setI w).lastKey = s.lastKey := rfl
@[simp] theorem State.setI_opcode (s : State) (w : Word) : (s.setI w).opcode = s.opcode := rfl
@[simp] theorem State.setI_rnd (s : State) (w : Word) : (s.setI w).rnd = s.rnd := rfl
@[simp] theorem State.setI_draws (s : State) (w : Word) : (s.setI w).draws = s.draws := rfl
@[simp] theorem State.setI_params (s : State) (w : Word) : (s.setI w).params = s.params := rfl
@[simp] theorem State.setI_pending (s : State) (w : Word) : (s.setI w).pending = s.pending := rfl
@[simp] theorem State.setI_outputs (s : State) (w : Word) : (s.setI w).outputs = s.outputs := rfl

/-! ### `setPc` -/

@[simp] theorem State.setPc_life (s : State) (w : Word) : (s.setPc w).life = s.life := rfl
@[simp] theorem State.setPc_mem (s : State) (w : Word) : (s.setPc w).mem = s.mem := rfl
@[simp] theorem State.setPc_log (s : State) (w : Word) : (s.setPc w).log = s.log := rfl
@[simp] theorem State.setPc_v (s : State) (w : Word) : (s.setPc w).v = s.v := rfl
@[simp] theorem State.setPc_i (s : State) (w : Word) : (s.setPc w).i = s.i := rfl
@[simp] theorem State.setPc_pc (s : State) (w : Word) : (s.setPc w).pc = w := rfl
@[simp] theorem State.setPc_stack (s : State) (w : Word) : (s.setPc w).stack = s.stack := rfl
@[simp] theorem State.setPc_sp (s : State) (w : Word) : (s.setPc w).sp = s.sp := rfl
@[simp] theorem State.setPc_dt (s : State) (w : Word) : (s.setPc w).dt = s.dt := rfl
@[simp] theorem State.setPc_st (s : State) (w : Word) : (s.setPc w).st = s.st := rfl
@[simp] theorem State.setPc_pix (s : State) (w : Word) : (s.setPc w).pix = s.pix := rfl
@[simp] theorem State.setPc_key (s : State) (w : Word) : (s.setPc w).key = s.key := rfl
@[simp] theorem State.setPc_lastKey (s : State) (w : Word) : (s.setPc w).lastKey = s.lastKey := rfl
@[simp] theorem State.setPc_opcode (s : State) (w : Word) : (s.setPc w).opcode = s.opcode := rfl
@[simp] theorem State.setPc_rnd (s : State) (w : Word) : (s.setPc w).rnd = s.rnd := rfl
@[simp] theorem State.setPc_draws (s : State) (w : Word) : (s.setPc w).draws = s.draws := rfl
@[simp] theorem State.setPc_params (s : State) (w : Word) : (s.setPc w).params = s.params := rfl
@[simp] theorem State.setPc_pending (s : State) (w : Word) : (s.setPc w).pending = s.pending := rfl
@[simp] theorem State.setPc_outputs (s : State) (w : Word) : (s.setPc w).outputs = s.outputs := rfl

/-! ### `skip` -/

@[simp] theorem State.skip_life (s : State) : (s.skip).life = s.life := rfl
@[simp] theorem State.skip_mem (s : State) : (s.skip).mem = s.mem := rfl
@[simp] theorem State.skip_log (s : State) : (s.skip).log = s.log := rfl
@[simp] theorem State.skip_v (s : State) : (s.skip).v = s.v := rfl
@[simp] theorem State.skip_i (s : State) : (s.skip).i = s.i := rfl
@[simp] theorem State.skip_pc (s : State) : (s.skip).pc = s.pc + 2#16 := rfl
@[simp] theorem State.skip_stack (s : State) : (s.skip).stack = s.stack := rfl
@[simp] theorem State.skip_sp (s : State) : (s.skip).sp = s.sp := rfl
@[simp] theorem State.skip_dt (s : State) : (s.skip).dt = s.dt := rfl
@[simp] theorem State.skip_st (s : State) : (s.skip).st = s.st := rfl
@[simp] theorem State.skip_pix (s : State) : (s.skip).pix = s.pix := rfl
@[simp] theorem State.skip_key (s : State) : (s.skip).key = s.key := rfl
@[simp] theorem State.skip_lastKey (s : State) : (s.skip).lastKey = s.lastKey := rfl
@[simp] theorem State.skip_opcode (s : State) : (s.skip).opcode = s.opcode := rfl
@[simp] theorem State.skip_rnd (s : State) : (s.skip).rnd = s.rnd := rfl
@[simp] theorem State.skip_draws (s : State) : (s.skip).draws = s.draws := rfl
@[simp] theorem State.skip_params (s : State) : (s.skip).params = s.params := rfl
@[simp] theorem State.skip_pending (s : State) : (s.skip).pending = s.pending := rfl
@[simp] theorem State.skip_outputs (s : State) : (s.skip).outputs = s.outputs := rfl

/-! ### `rewind` -/

@[simp] theorem State.rewind_life (s : State) : (s.rewind).life = s.life := rfl
@[simp] theorem State.rewind_mem (s : State) : (s.rewind).mem = s.mem := rfl
@[simp] theorem State.rewind_log (s : State) : (s.rewind).log = s.log := rfl
@[simp] theorem State.rewind_v (s : State) : (s.rewind).v = s.v := rfl
@[simp] theorem State.rewind_i (s : State) : (s.rewind).i = s.i := rfl
@[simp] theorem State.rewind_pc (s : State) : (s.rewind).pc = s.pc - 2#16 := rfl
@[simp] theorem State.rewind_stack (s : State) : (s.rewind).stack = s.stack := rfl
@[simp] theorem State.rewind_sp (s : State) : (s.rewind).sp = s.sp := rfl
@[simp] theorem State.rewind_dt (s : State) : (s.rewind).dt = s.dt := rfl
@[simp] theorem State.rewind_st (s : State) : (s.rewind).st = s.st := rfl
@[simp] theorem State.rewind_pix (s : State) : (s.rewind).pix = s.pix := rfl
@[simp] theorem State.rewind_key (s : State) : (s.rewind).key = s.key := rfl
@[simp] theorem State.rewind_lastKey (s : State) : (s.rewind).lastKey = s.lastKey := rfl
@[simp] theorem State.rewind_opcode (s : State) : (s.rewind).opcode = s.opcode := rfl
@[simp] theorem State.rewind_rnd (s : State) : (s.rewind).rnd = s.rnd := rfl
@[simp] theorem State.rewind_draws (s : State) : (s.rewind).draws = s.draws := rfl
@[simp] theorem State.rewind_params (s : State) : (s.rewind).params = s.params := rfl
@[simp] theorem State.rewind_pending (s : State) : (s.rewind).pending = s.pending := rfl
@[simp] theorem State.rewind_outputs (s : State) : (s.rewind).outputs = s.outputs := rfl

/-! ### `setDt` -/

@[simp] theorem State.setDt_life (s : State) (b : Byte) : (s.setDt b).life = s.life := rfl
@[simp] theorem State.setDt_mem (s : State) (b : Byte) : (s.setDt b).mem = s.mem := rfl
@[simp] theorem State.setDt_log (s : State) (b : Byte) : (s.setDt b).log = s.log := rfl
@[simp] theorem State.setDt_v (s : State) (b : Byte) : (s.setDt b).v = s.v := rfl
@[simp] theorem State.setDt_i (s : State) (b : Byte) : (s.setDt b).i = s.i := rfl
@[simp] theorem State.setDt_pc (s : State) (b : Byte) : (s.setDt b).pc = s.pc := rfl
@[simp] theorem State.setDt_stack (s : State) (b : Byte) : (s.setDt b).stack = s.stack := rfl
@[simp] theorem State.setDt_sp (s : State) (b : Byte) : (s.setDt b).sp = s.sp := rfl
@[simp] theorem State.setDt_dt (s : State) (b : Byte) : (s.setDt b).dt = b := rfl
@[simp] theorem State.setDt_st (s : State) (b : Byte) : (s.setDt b).st = s.st := rfl
@[simp] theorem State.setDt_pix (s : State) (b : Byte) : (s.setDt b).pix = s.pix := rfl
@[simp] theorem State.setDt_key (s : State) (b : Byte) : (s.setDt b).key = s.key := rfl
@[simp] theorem State.setDt_lastKey (s : State) (b : Byte) : (s.setDt b).lastKey = s.lastKey := rfl
@[simp] theorem State.setDt_opcode (s : State) (b : Byte) : (s.setDt b).opcode = s.opcode := rfl
@[simp] theorem State.setDt_rnd (s : State) (b : Byte) : (s.setDt b).rnd = s.rnd := rfl
@[simp] theorem State.setDt_draws (s : State) (b : Byte) : (s.setDt b).draws = s.draws := rfl
@[simp] theorem State.setDt_params (s : State) (b : Byte) : (s.setDt b).params = s.params := rfl
@[simp] theorem State.setDt_pending (s : State) (b : Byte) : (s.setDt b).pending = s.pending := rfl
@[simp] theorem State.setDt_outputs (s : State) (b : Byte) : (s.setDt b).outputs = s.outputs := rfl

/-! ### `setSt` -/

@[simp] theorem State.setSt_life (s : State) (b : Byte) : (s.setSt b).life = s.life := rfl
@[simp] theorem State.setSt_mem (s : State) (b : Byte) : (s.setSt b).mem = s.mem := rfl
@[simp] theorem State.setSt_log (s : State) (b : Byte) : (s.setSt b).log = s.log := rfl
@[simp] theorem State.setSt_v (s : State) (b : Byte) : (s.setSt b).v = s.v := rfl
@[simp] theorem State.setSt_i (s : State) (b : Byte) : (s.setSt b).i = s.i := rfl
@[simp] theorem State.setSt_pc (s : State) (b : Byte) : (s.setSt b).pc = s.pc := rfl
@[simp] theorem State.setSt_stack (s : State) (b : Byte) : (s.setSt b).stack = s.stack := rfl
@[simp] theorem State.setSt_sp (s : State) (b : Byte) : (s.setSt b).sp = s.sp := rfl
@[simp] theorem State.setSt_dt (s : State) (b : Byte) : (s.setSt b).dt = s.dt := rfl
@[simp] theorem State.setSt_st (s : State) (b : Byte) : (s.setSt b).st = b := rfl
@[simp] theorem State.setSt_pix (s : State) (b : Byte) : (s.setSt b).pix = s.pix := rfl
@[simp] theorem State.setSt_key (s : State) (b : Byte) : (s.setSt b).key = s.key := rfl
@[simp] theorem State.setSt_lastKey (s : State) (b : Byte) : (s.setSt b).lastKey = s.lastKey := rfl
@[simp] theorem State.setSt_opcode (s : State) (b : Byte) : (s.setSt b).opcode = s.opcode := rfl
@[simp] theorem State.setSt_rnd (s : State) (b : Byte) : (s.setSt b).rnd = s.rnd := rfl
@[simp] theorem State.setSt_draws (s : State) (b : Byte) : (s.setSt b).draws = s.draws := rfl
@[simp] theorem State.setSt_params (s : State) (b : Byte) : (s.setSt b).params = s.params := rfl
@[simp] theorem State.setSt_pending (s : State) (b : Byte) : (s.setSt b).pending = s.pending := rfl
@[simp] theorem State.setSt_outputs (s : State) (b : Byte) : (s.setSt b).outputs = s.outputs := rfl

/-! ### `setPix` -/

@[simp] theorem State.setPix_life (s : State) (p : Screen) : (s.setPix p).life = s.life := rfl
@[simp] theorem State.setPix_mem (s : State) (p : Screen) : (s.setPix p).mem = s.mem := rfl
@[simp] theorem State.setPix_log (s : State) (p : Screen) : (s.setPix p).log = s.log := rfl
@[simp] theorem State.setPix_v (s : State) (p : Screen) : (s.setPix p).v = s.v := rfl
@[simp] theorem State.setPix_i (s : State) (p : Screen) : (s.setPix p).i = s.i := rfl
@[simp] theorem State.setPix_pc (s : State) (p : Screen) : (s.setPix p).pc = s.pc := rfl
@[simp] theorem State.setPix_stack (s : State) (p : Screen) : (s.setPix p).stack = s.stack := rfl
@[simp] theorem State.setPix_sp (s : State) (p : Screen) : (s.setPix p).sp = s.sp := rfl
@[simp] theorem State.setPix_dt (s : State) (p : Screen) : (s.setPix p).dt = s.dt := rfl
@[simp] theorem State.setPix_st (s : State) (p : Screen) : (s.setPix p).st = s.st := rfl
@[simp] theorem State.setPix_pix (s : State) (p : Screen) : (s.setPix p).pix = p := rfl
@[simp] theorem State.setPix_key (s : State) (p : Screen) : (s.setPix p).key = s.key := rfl
@[simp] theorem State.setPix_lastKey (s : State) (p : Screen) : (s.setPix p).lastKey = s.lastKey := rfl
@[simp] theorem State.setPix_opcode (s : State) (p : Screen) : (s.setPix p).opcode = s.opcode := rfl
@[simp] theorem State.setPix_rnd (s : State) (p : Screen) : (s.setPix p).rnd = s.rnd := rfl
@[simp] theorem State.setPix_draws (s : State) (p : Screen) : (s.setPix p).draws = s.draws := rfl
@[simp] theorem State.setPix_params (s : State) (p : Screen) : (s.setPix p).params = s.params := rfl
@[simp] theorem State.setPix_pending (s : State) (p : Screen) : (s.setPix p).pending = s.pending := rfl
@[simp] theorem State.setPix_outputs (s : State) (p : Screen) : (s.setPix p).outputs = s.outputs := rfl

/-! ### `push` -/

@[simp] theorem State.push_life (s : State) (w : Word) (h : s.sp.val < 16) : (s.push w h).life = s.life := rfl
@[simp] theorem State.push_mem (s : State) (w : Word) (h : s.sp.val < 16) : (s.push w h).mem = s.mem := rfl
@[simp] theorem State.push_log (s : State) (w : Word) (h : s.sp.val < 16) : (s.push w h).log = s.log := rfl
@[simp] theorem State.push_v (s : State) (w : Word) (h : s.sp.val < 16) : (s.push w h).v = s.v := rfl
@[simp] theorem State.push_i (s : State) (w : Word) (h : s.sp.val < 16) : (s.push w h).i = s.i := rfl
@[simp] theorem State.push_pc (s : State) (w : Word) (h : s.sp.val < 16) : (s.push w h).pc = s.pc := rfl
@[simp] theorem State.push_stack (s : State) (w : Word) (h : s.sp.val < 16) : (s.push w h).stack = s.stack.set s.sp.val w h := rfl
@[simp] theorem State.push_sp (s : State) (w : Word) (h : s.sp.val < 16) : (s.push w h).sp = ⟨s.sp.val + 1, by omega⟩ := rfl
@[simp] theorem State.push_dt (s : State) (w : Word) (h : s.sp.val < 16) : (s.push w h).dt = s.dt := rfl
@[simp] theorem State.push_st (s : State) (w : Word) (h : s.sp.val < 16) : (s.push w h).st = s.st := rfl
@[simp] theorem State.push_pix (s : State) (w : Word) (h : s.sp.val < 16) : (s.push w h).pix = s.pix := rfl
@[simp] theorem State.push_key (s : State) (w : Word) (h : s.sp.val < 16) : (s.push w h).key = s.key := rfl
@[simp] theorem State.push_lastKey (s : State) (w : Word) (h : s.sp.val < 16) : (s.push w h).lastKey = s.lastKey := rfl
@[simp] theorem State.push_opcode (s : State) (w : Word) (h : s.sp.val < 16) : (s.push w h).opcode = s.opcode := rfl
@[simp] theorem State.push_rnd (s : State) (w : Word) (h : s.sp.val < 16) : (s.push w h).rnd = s.rnd := rfl
@[simp] theorem State.push_draws (s : State) (w : Word) (h : s.sp.val < 16) : (s.push w h).draws = s.draws := rfl
@[simp] theorem State.push_params (s : State) (w : Word) (h : s.sp.val < 16) : (s.push w h).params = s.params := rfl
@[simp] theorem State.push_pending (s : State) (w : Word) (h : s.sp.val < 16) : (s.push w h).pending = s.pending := rfl
@[simp] theorem State.push_outputs (s : State) (w : Word) (h : s.sp.val < 16) : (s.push w h).outputs = s.outputs := rfl

/-! ### `pop` -/

@[simp] theorem State.pop_life (s : State) : (s.pop).life = s.life := rfl
@[simp] theorem State.pop_mem (s : State) : (s.pop).mem = s.mem := rfl
@[simp] theorem State.pop_log (s : State) : (s.pop).log = s.log := rfl
@[simp] theorem State.pop_v (s : State) : (s.pop).v = s.v := rfl
@[simp] theorem State.pop_i (s : State) : (s.pop).i = s.i := rfl
@[simp] theorem State.pop_pc (s : State) : (s.pop).pc = s.pc := rfl
@[simp] theorem State.pop_stack (s : State) : (s.pop).stack = s.stack := rfl
@[simp] theorem State.pop_sp (s : State) : (s.pop).sp = ⟨s.sp.val - 1, by have := s.sp.isLt; omega⟩ := rfl
@[simp] theorem State.pop_dt (s : State) : (s.pop).dt = s.dt := rfl
@[simp] theorem State.pop_st (s : State) : (s.pop).st = s.st := rfl
@[simp] theorem State.pop_pix (s : State) : (s.pop).pix = s.pix := rfl
@[simp] theorem State.pop_key (s : State) : (s.pop).key = s.key := rfl
@[simp] theorem State.pop_lastKey (s : State) : (s.pop).lastKey = s.lastKey := rfl
@[simp] theorem State.pop_opcode (s : State) : (s.pop).opcode = s.opcode := rfl
@[simp] theorem State.pop_rnd (s : State) : (s.pop).rnd = s.rnd := rfl
@[simp] theorem State.pop_draws (s : State) : (s.pop).draws = s.draws := rfl
@[simp] theorem State.pop_params (s : State) : (s.pop).params = s.params := rfl
@[simp] theorem State.pop_pending (s : State) : (s.pop).pending = s.pending := rfl
@[simp] theorem State.pop_outputs (s : State) : (s.pop).outputs = s.outputs := rfl

/-! ### `emit` -/

@[simp] theorem State.emit_life (s : State) (o : Output) : (s.emit o).life = s.life := rfl
@[simp] theorem State.emit_mem (s : State) (o : Output) : (s.emit o).mem = s.mem := rfl
@[simp] theorem State.emit_log (s : State) (o : Output) : (s.emit o).log = s.log := rfl
@[simp] theorem State.emit_v (s : State) (o : Output) : (s.emit o).v = s.v := rfl
@[simp] theorem State.emit_i (s : State) (o : Output) : (s.emit o).i = s.i := rfl
@[simp] theorem State.emit_pc (s : State) (o : Output) : (s.emit o).pc = s.pc := rfl
@[simp] theorem State.emit_stack (s : State) (o : Output) : (s.emit o).stack = s.stack := rfl
@[simp] theorem State.emit_sp (s : State) (o : Output) : (s.emit o).sp = s.sp := rfl
@[simp] theorem State.emit_dt (s : State) (o : Output) : (s.emit o).dt = s.dt := rfl
@[simp] theorem State.emit_st (s : State) (o : Output) : (s.emit o).st = s.st := rfl
@[simp] theorem State.emit_pix (s : State) (o : Output) : (s.emit o).pix = s.pix := rfl
@[simp] theorem State.emit_key (s : State) (o : Output) : (s.emit o).key = s.key := rfl
@[simp] theorem State.emit_lastKey (s : State) (o : Output) : (s.emit o).lastKey = s.lastKey := rfl
@[simp] theorem State.emit_opcode (s : State) (o : Output) : (s.emit o).opcode = s.opcode := rfl
@[simp] theorem State.emit_rnd (s : State) (o : Output) : (s.emit o).rnd = s.rnd := rfl
@[simp] theorem State.emit_draws (s : State) (o : Output) : (s.emit o).draws = s.draws := rfl
@[simp] theorem State.emit_params (s : State) (o : Output) : (s.emit o).params = s.params := rfl
@[simp] theorem State.emit_pending (s : State) (o : Output) : (s.emit o).pending = s.pending := rfl
@[simp] theorem State.emit_outputs (s : State) (o : Output) : (s.emit o).outputs = s.outputs ++ [o] := rfl

/-! ### `raise` -/

@[simp] theorem State.raise_life (s : State) (d : Diagnostic) : (s.raise d).life = s.life := rfl
@[simp] theorem State.raise_mem (s : State) (d : Diagnostic) : (s.raise d).mem = s.mem := rfl
@[simp] theorem State.raise_log (s : State) (d : Diagnostic) : (s.raise d).log = s.log := rfl
@[simp] theorem State.raise_v (s : State) (d : Diagnostic) : (s.raise d).v = s.v := rfl
@[simp] theorem State.raise_i (s : State) (d : Diagnostic) : (s.raise d).i = s.i := rfl
@[simp] theorem State.raise_pc (s : State) (d : Diagnostic) : (s.raise d).pc = s.pc := rfl
@[simp] theorem State.raise_stack (s : State) (d : Diagnostic) : (s.raise d).stack = s.stack := rfl
@[simp] theorem State.raise_sp (s : State) (d : Diagnostic) : (s.raise d).sp = s.sp := rfl
@[simp] theorem State.raise_dt (s : State) (d : Diagnostic) : (s.raise d).dt = s.dt := rfl
@[simp] theorem State.raise_st (s : State) (d : Diagnostic) : (s.raise d).st = s.st := rfl
@[simp] theorem State.raise_pix (s : State) (d : Diagnostic) : (s.raise d).pix = s.pix := rfl
@[simp] theorem State.raise_key (s : State) (d : Diagnostic) : (s.raise d).key = s.key := rfl
@[simp] theorem State.raise_lastKey (s : State) (d : Diagnostic) : (s.raise d).lastKey = s.lastKey := rfl
@[simp] theorem State.raise_opcode (s : State) (d : Diagnostic) : (s.raise d).opcode = s.opcode := rfl
@[simp] theorem State.raise_rnd (s : State) (d : Diagnostic) : (s.raise d).rnd = s.rnd := rfl
@[simp] theorem State.raise_draws (s : State) (d : Diagnostic) : (s.raise d).draws = s.draws := rfl
@[simp] theorem State.raise_params (s : State) (d : Diagnostic) : (s.raise d).params = s.params := rfl
@[simp] theorem State.raise_pending (s : State) (d : Diagnostic) : (s.raise d).pending = s.pending := rfl
@[simp] theorem State.raise_outputs (s : State) (d : Diagnostic) : (s.raise d).outputs = s.outputs ++ [.diagnostic d] := rfl

/-! ### `complete` -/

@[simp] theorem State.complete_life (s : State) : (s.complete).life = s.life := rfl
@[simp] theorem State.complete_mem (s : State) : (s.complete).mem = s.mem := rfl
@[simp] theorem State.complete_log (s : State) : (s.complete).log = s.log := rfl
@[simp] theorem State.complete_v (s : State) : (s.complete).v = s.v := rfl
@[simp] theorem State.complete_i (s : State) : (s.complete).i = s.i := rfl
@[simp] theorem State.complete_pc (s : State) : (s.complete).pc = s.pc := rfl
@[simp] theorem State.complete_stack (s : State) : (s.complete).stack = s.stack := rfl
@[simp] theorem State.complete_sp (s : State) : (s.complete).sp = s.sp := rfl
@[simp] theorem State.complete_dt (s : State) : (s.complete).dt = s.dt := rfl
@[simp] theorem State.complete_st (s : State) : (s.complete).st = s.st := rfl
@[simp] theorem State.complete_pix (s : State) : (s.complete).pix = s.pix := rfl
@[simp] theorem State.complete_key (s : State) : (s.complete).key = s.key := rfl
@[simp] theorem State.complete_lastKey (s : State) : (s.complete).lastKey = s.lastKey := rfl
@[simp] theorem State.complete_opcode (s : State) : (s.complete).opcode = s.opcode := rfl
@[simp] theorem State.complete_rnd (s : State) : (s.complete).rnd = s.rnd := rfl
@[simp] theorem State.complete_draws (s : State) : (s.complete).draws = s.draws := rfl
@[simp] theorem State.complete_params (s : State) : (s.complete).params = s.params := rfl
@[simp] theorem State.complete_pending (s : State) : (s.complete).pending = s.pending := rfl
@[simp] theorem State.complete_outputs (s : State) : (s.complete).outputs = s.outputs ++ [.cycleComplete] := rfl

/-! ### `refreshKeys` -/

@[simp] theorem State.refreshKeys_life (s : State) (held : Config.Keys) : (s.refreshKeys held).life = s.life := rfl
@[simp] theorem State.refreshKeys_mem (s : State) (held : Config.Keys) : (s.refreshKeys held).mem = s.mem := rfl
@[simp] theorem State.refreshKeys_log (s : State) (held : Config.Keys) : (s.refreshKeys held).log = s.log := rfl
@[simp] theorem State.refreshKeys_v (s : State) (held : Config.Keys) : (s.refreshKeys held).v = s.v := rfl
@[simp] theorem State.refreshKeys_i (s : State) (held : Config.Keys) : (s.refreshKeys held).i = s.i := rfl
@[simp] theorem State.refreshKeys_pc (s : State) (held : Config.Keys) : (s.refreshKeys held).pc = s.pc := rfl
@[simp] theorem State.refreshKeys_stack (s : State) (held : Config.Keys) : (s.refreshKeys held).stack = s.stack := rfl
@[simp] theorem State.refreshKeys_sp (s : State) (held : Config.Keys) : (s.refreshKeys held).sp = s.sp := rfl
@[simp] theorem State.refreshKeys_dt (s : State) (held : Config.Keys) : (s.refreshKeys held).dt = s.dt := rfl
@[simp] theorem State.refreshKeys_st (s : State) (held : Config.Keys) : (s.refreshKeys held).st = s.st := rfl
@[simp] theorem State.refreshKeys_pix (s : State) (held : Config.Keys) : (s.refreshKeys held).pix = s.pix := rfl
@[simp] theorem State.refreshKeys_key (s : State) (held : Config.Keys) : (s.refreshKeys held).key = held := rfl
@[simp] theorem State.refreshKeys_lastKey (s : State) (held : Config.Keys) : (s.refreshKeys held).lastKey = lowestKey s.params.keywaitMode s.key held := rfl
@[simp] theorem State.refreshKeys_opcode (s : State) (held : Config.Keys) : (s.refreshKeys held).opcode = s.opcode := rfl
@[simp] theorem State.refreshKeys_rnd (s : State) (held : Config.Keys) : (s.refreshKeys held).rnd = s.rnd := rfl
@[simp] theorem State.refreshKeys_draws (s : State) (held : Config.Keys) : (s.refreshKeys held).draws = s.draws := rfl
@[simp] theorem State.refreshKeys_params (s : State) (held : Config.Keys) : (s.refreshKeys held).params = s.params := rfl
@[simp] theorem State.refreshKeys_pending (s : State) (held : Config.Keys) : (s.refreshKeys held).pending = s.pending := rfl
@[simp] theorem State.refreshKeys_outputs (s : State) (held : Config.Keys) : (s.refreshKeys held).outputs = s.outputs := rfl

/-! ### `sample` -/

@[simp] theorem State.sample_life (s : State) (held : Config.Keys) (rnd : Byte) : (s.sample held rnd).life = s.life := rfl
@[simp] theorem State.sample_mem (s : State) (held : Config.Keys) (rnd : Byte) : (s.sample held rnd).mem = s.mem := rfl
@[simp] theorem State.sample_log (s : State) (held : Config.Keys) (rnd : Byte) : (s.sample held rnd).log = s.log := rfl
@[simp] theorem State.sample_v (s : State) (held : Config.Keys) (rnd : Byte) : (s.sample held rnd).v = s.v := rfl
@[simp] theorem State.sample_i (s : State) (held : Config.Keys) (rnd : Byte) : (s.sample held rnd).i = s.i := rfl
@[simp] theorem State.sample_pc (s : State) (held : Config.Keys) (rnd : Byte) : (s.sample held rnd).pc = s.pc := rfl
@[simp] theorem State.sample_stack (s : State) (held : Config.Keys) (rnd : Byte) : (s.sample held rnd).stack = s.stack := rfl
@[simp] theorem State.sample_sp (s : State) (held : Config.Keys) (rnd : Byte) : (s.sample held rnd).sp = s.sp := rfl
@[simp] theorem State.sample_dt (s : State) (held : Config.Keys) (rnd : Byte) : (s.sample held rnd).dt = s.dt := rfl
@[simp] theorem State.sample_st (s : State) (held : Config.Keys) (rnd : Byte) : (s.sample held rnd).st = s.st := rfl
@[simp] theorem State.sample_pix (s : State) (held : Config.Keys) (rnd : Byte) : (s.sample held rnd).pix = s.pix := rfl
@[simp] theorem State.sample_key (s : State) (held : Config.Keys) (rnd : Byte) : (s.sample held rnd).key = held := rfl
@[simp] theorem State.sample_lastKey (s : State) (held : Config.Keys) (rnd : Byte) : (s.sample held rnd).lastKey = lowestKey s.params.keywaitMode s.key held := rfl
@[simp] theorem State.sample_opcode (s : State) (held : Config.Keys) (rnd : Byte) : (s.sample held rnd).opcode = s.opcode := rfl
@[simp] theorem State.sample_rnd (s : State) (held : Config.Keys) (rnd : Byte) : (s.sample held rnd).rnd = rnd := rfl
@[simp] theorem State.sample_draws (s : State) (held : Config.Keys) (rnd : Byte) : (s.sample held rnd).draws = s.draws := rfl
@[simp] theorem State.sample_params (s : State) (held : Config.Keys) (rnd : Byte) : (s.sample held rnd).params = s.params := rfl
@[simp] theorem State.sample_pending (s : State) (held : Config.Keys) (rnd : Byte) : (s.sample held rnd).pending = s.pending := rfl
@[simp] theorem State.sample_outputs (s : State) (held : Config.Keys) (rnd : Byte) : (s.sample held rnd).outputs = s.outputs := rfl

/-! ### `fetch` -/

@[simp] theorem State.fetch_life (s : State) : (s.fetch).life = s.life := rfl
@[simp] theorem State.fetch_mem (s : State) : (s.fetch).mem = s.mem := rfl
@[simp] theorem State.fetch_log (s : State) : (s.fetch).log = s.log := rfl
@[simp] theorem State.fetch_v (s : State) : (s.fetch).v = s.v := rfl
@[simp] theorem State.fetch_i (s : State) : (s.fetch).i = s.i := rfl
@[simp] theorem State.fetch_pc (s : State) : (s.fetch).pc = s.pc + 2#16 := rfl
@[simp] theorem State.fetch_stack (s : State) : (s.fetch).stack = s.stack := rfl
@[simp] theorem State.fetch_sp (s : State) : (s.fetch).sp = s.sp := rfl
@[simp] theorem State.fetch_dt (s : State) : (s.fetch).dt = s.dt := rfl
@[simp] theorem State.fetch_st (s : State) : (s.fetch).st = s.st := rfl
@[simp] theorem State.fetch_pix (s : State) : (s.fetch).pix = s.pix := rfl
@[simp] theorem State.fetch_key (s : State) : (s.fetch).key = s.key := rfl
@[simp] theorem State.fetch_lastKey (s : State) : (s.fetch).lastKey = s.lastKey := rfl
@[simp] theorem State.fetch_opcode (s : State) : (s.fetch).opcode = s.fetchWord := rfl
@[simp] theorem State.fetch_rnd (s : State) : (s.fetch).rnd = s.rnd := rfl
@[simp] theorem State.fetch_draws (s : State) : (s.fetch).draws = s.draws := rfl
@[simp] theorem State.fetch_params (s : State) : (s.fetch).params = s.params := rfl
@[simp] theorem State.fetch_pending (s : State) : (s.fetch).pending = s.pending := rfl
@[simp] theorem State.fetch_outputs (s : State) : (s.fetch).outputs = s.outputs := rfl

/-! ### `setFlag` -/

@[simp] theorem State.setFlag_life (s : State) (c : Bool) : (s.setFlag c).life = s.life := rfl
@[simp] theorem State.setFlag_mem (s : State) (c : Bool) : (s.setFlag c).mem = s.mem := rfl
@[simp] theorem State.setFlag_log (s : State) (c : Bool) : (s.setFlag c).log = s.log := rfl
@[simp] theorem State.setFlag_i (s : State) (c : Bool) : (s.setFlag c).i = s.i := rfl
@[simp] theorem State.setFlag_pc (s : State) (c : Bool) : (s.setFlag c).pc = s.pc := rfl
@[simp] theorem State.setFlag_stack (s : State) (c : Bool) : (s.setFlag c).stack = s.stack := rfl
@[simp] theorem State.setFlag_sp (s : State) (c : Bool) : (s.setFlag c).sp = s.sp := rfl
@[simp] theorem State.setFlag_dt (s : State) (c : Bool) : (s.setFlag c).dt = s.dt := rfl
@[simp] theorem State.setFlag_st (s : State) (c : Bool) : (s.setFlag c).st = s.st := rfl
@[simp] theorem State.setFlag_pix (s : State) (c : Bool) : (s.setFlag c).pix = s.pix := rfl
@[simp] theorem State.setFlag_key (s : State) (c : Bool) : (s.setFlag c).key = s.key := rfl
@[simp] theorem State.setFlag_lastKey (s : State) (c : Bool) : (s.setFlag c).lastKey = s.lastKey := rfl
@[simp] theorem State.setFlag_opcode (s : State) (c : Bool) : (s.setFlag c).opcode = s.opcode := rfl
@[simp] theorem State.setFlag_rnd (s : State) (c : Bool) : (s.setFlag c).rnd = s.rnd := rfl
@[simp] theorem State.setFlag_draws (s : State) (c : Bool) : (s.setFlag c).draws = s.draws := rfl
@[simp] theorem State.setFlag_params (s : State) (c : Bool) : (s.setFlag c).params = s.params := rfl
@[simp] theorem State.setFlag_pending (s : State) (c : Bool) : (s.setFlag c).pending = s.pending := rfl
@[simp] theorem State.setFlag_outputs (s : State) (c : Bool) : (s.setFlag c).outputs = s.outputs := rfl

/-! ### `skipIf` -/

@[simp] theorem State.skipIf_life (s : State) (c : Bool) : (s.skipIf c).life = s.life := by cases c <;> rfl
@[simp] theorem State.skipIf_mem (s : State) (c : Bool) : (s.skipIf c).mem = s.mem := by cases c <;> rfl
@[simp] theorem State.skipIf_log (s : State) (c : Bool) : (s.skipIf c).log = s.log := by cases c <;> rfl
@[simp] theorem State.skipIf_v (s : State) (c : Bool) : (s.skipIf c).v = s.v := by cases c <;> rfl
@[simp] theorem State.skipIf_i (s : State) (c : Bool) : (s.skipIf c).i = s.i := by cases c <;> rfl
@[simp] theorem State.skipIf_pc (s : State) (c : Bool) : (s.skipIf c).pc = if c then s.pc + 2#16 else s.pc := by
  cases c <;> rfl
@[simp] theorem State.skipIf_stack (s : State) (c : Bool) : (s.skipIf c).stack = s.stack := by cases c <;> rfl
@[simp] theorem State.skipIf_sp (s : State) (c : Bool) : (s.skipIf c).sp = s.sp := by cases c <;> rfl
@[simp] theorem State.skipIf_dt (s : State) (c : Bool) : (s.skipIf c).dt = s.dt := by cases c <;> rfl
@[simp] theorem State.skipIf_st (s : State) (c : Bool) : (s.skipIf c).st = s.st := by cases c <;> rfl
@[simp] theorem State.skipIf_pix (s : State) (c : Bool) : (s.skipIf c).pix = s.pix := by cases c <;> rfl
@[simp] theorem State.skipIf_key (s : State) (c : Bool) : (s.skipIf c).key = s.key := by cases c <;> rfl
@[simp] theorem State.skipIf_lastKey (s : State) (c : Bool) : (s.skipIf c).lastKey = s.lastKey := by cases c <;> rfl
@[simp] theorem State.skipIf_opcode (s : State) (c : Bool) : (s.skipIf c).opcode = s.opcode := by cases c <;> rfl
@[simp] theorem State.skipIf_rnd (s : State) (c : Bool) : (s.skipIf c).rnd = s.rnd := by cases c <;> rfl
@[simp] theorem State.skipIf_draws (s : State) (c : Bool) : (s.skipIf c).draws = s.draws := by cases c <;> rfl
@[simp] theorem State.skipIf_params (s : State) (c : Bool) : (s.skipIf c).params = s.params := by cases c <;> rfl
@[simp] theorem State.skipIf_pending (s : State) (c : Bool) : (s.skipIf c).pending = s.pending := by cases c <;> rfl
@[simp] theorem State.skipIf_outputs (s : State) (c : Bool) : (s.skipIf c).outputs = s.outputs := by cases c <;> rfl

/-! ### `initialise` -/

@[simp] theorem State.initialise_life (s : State) : s.initialise.life = State.reset.life := rfl
@[simp] theorem State.initialise_mem (s : State) : s.initialise.mem = State.reset.mem := rfl
@[simp] theorem State.initialise_log (s : State) : s.initialise.log = State.reset.log := rfl
@[simp] theorem State.initialise_v (s : State) : s.initialise.v = State.reset.v := rfl
@[simp] theorem State.initialise_i (s : State) : s.initialise.i = State.reset.i := rfl
@[simp] theorem State.initialise_pc (s : State) : s.initialise.pc = State.reset.pc := rfl
@[simp] theorem State.initialise_stack (s : State) : s.initialise.stack = State.reset.stack := rfl
@[simp] theorem State.initialise_sp (s : State) : s.initialise.sp = State.reset.sp := rfl
@[simp] theorem State.initialise_dt (s : State) : s.initialise.dt = State.reset.dt := rfl
@[simp] theorem State.initialise_st (s : State) : s.initialise.st = State.reset.st := rfl
@[simp] theorem State.initialise_pix (s : State) : s.initialise.pix = State.reset.pix := rfl
@[simp] theorem State.initialise_key (s : State) : s.initialise.key = State.reset.key := rfl
@[simp] theorem State.initialise_lastKey (s : State) : s.initialise.lastKey = State.reset.lastKey := rfl
@[simp] theorem State.initialise_opcode (s : State) : s.initialise.opcode = State.reset.opcode := rfl
@[simp] theorem State.initialise_rnd (s : State) : s.initialise.rnd = s.rnd := rfl
@[simp] theorem State.initialise_draws (s : State) : s.initialise.draws = s.draws := rfl
@[simp] theorem State.initialise_params (s : State) : s.initialise.params = s.params := rfl
@[simp] theorem State.initialise_pending (s : State) : s.initialise.pending = s.pending := rfl
@[simp] theorem State.initialise_outputs (s : State) : s.initialise.outputs = s.outputs := rfl

/-! ### Reads through the updates: a register, a byte of memory, a data address -/

@[simp] theorem State.memWrite_getV (s : State) (a : Addr) (w : Byte) (q : Nibble) : (s.memWrite a w).getV q = s.getV q := rfl
@[simp] theorem State.memWrite_dataAddr (s : State) (a : Addr) (w : Byte) (q : Nat) : (s.memWrite a w).dataAddr q = s.dataAddr q := rfl
@[simp] theorem State.setV_memRead (s : State) (r : Nibble) (b : Byte) (q : Addr) : (s.setV r b).memRead q = s.memRead q := rfl
@[simp] theorem State.setV_dataAddr (s : State) (r : Nibble) (b : Byte) (q : Nat) : (s.setV r b).dataAddr q = s.dataAddr q := rfl
@[simp] theorem State.setI_getV (s : State) (w : Word) (q : Nibble) : (s.setI w).getV q = s.getV q := rfl
@[simp] theorem State.setI_memRead (s : State) (w : Word) (q : Addr) : (s.setI w).memRead q = s.memRead q := rfl
@[simp] theorem State.setPc_getV (s : State) (w : Word) (q : Nibble) : (s.setPc w).getV q = s.getV q := rfl
@[simp] theorem State.setPc_memRead (s : State) (w : Word) (q : Addr) : (s.setPc w).memRead q = s.memRead q := rfl
@[simp] theorem State.setPc_dataAddr (s : State) (w : Word) (q : Nat) : (s.setPc w).dataAddr q = s.dataAddr q := rfl
@[simp] theorem State.skip_getV (s : State) (q : Nibble) : (s.skip).getV q = s.getV q := rfl
@[simp] theorem State.skip_memRead (s : State) (q : Addr) : (s.skip).memRead q = s.memRead q := rfl
@[simp] theorem State.skip_dataAddr (s : State) (q : Nat) : (s.skip).dataAddr q = s.dataAddr q := rfl
@[simp] theorem State.rewind_getV (s : State) (q : Nibble) : (s.rewind).getV q = s.getV q := rfl
@[simp] theorem State.rewind_memRead (s : State) (q : Addr) : (s.rewind).memRead q = s.memRead q := rfl
@[simp] theorem State.rewind_dataAddr (s : State) (q : Nat) : (s.rewind).dataAddr q = s.dataAddr q := rfl
@[simp] theorem State.setDt_getV (s : State) (b : Byte) (q : Nibble) : (s.setDt b).getV q = s.getV q := rfl
@[simp] theorem State.setDt_memRead (s : State) (b : Byte) (q : Addr) : (s.setDt b).memRead q = s.memRead q := rfl
@[simp] theorem State.setDt_dataAddr (s : State) (b : Byte) (q : Nat) : (s.setDt b).dataAddr q = s.dataAddr q := rfl
@[simp] theorem State.setSt_getV (s : State) (b : Byte) (q : Nibble) : (s.setSt b).getV q = s.getV q := rfl
@[simp] theorem State.setSt_memRead (s : State) (b : Byte) (q : Addr) : (s.setSt b).memRead q = s.memRead q := rfl
@[simp] theorem State.setSt_dataAddr (s : State) (b : Byte) (q : Nat) : (s.setSt b).dataAddr q = s.dataAddr q := rfl
@[simp] theorem State.setPix_getV (s : State) (p : Screen) (q : Nibble) : (s.setPix p).getV q = s.getV q := rfl
@[simp] theorem State.setPix_memRead (s : State) (p : Screen) (q : Addr) : (s.setPix p).memRead q = s.memRead q := rfl
@[simp] theorem State.setPix_dataAddr (s : State) (p : Screen) (q : Nat) : (s.setPix p).dataAddr q = s.dataAddr q := rfl
@[simp] theorem State.push_getV (s : State) (w : Word) (h : s.sp.val < 16) (q : Nibble) : (s.push w h).getV q = s.getV q := rfl
@[simp] theorem State.push_memRead (s : State) (w : Word) (h : s.sp.val < 16) (q : Addr) : (s.push w h).memRead q = s.memRead q := rfl
@[simp] theorem State.push_dataAddr (s : State) (w : Word) (h : s.sp.val < 16) (q : Nat) : (s.push w h).dataAddr q = s.dataAddr q := rfl
@[simp] theorem State.pop_getV (s : State) (q : Nibble) : (s.pop).getV q = s.getV q := rfl
@[simp] theorem State.pop_memRead (s : State) (q : Addr) : (s.pop).memRead q = s.memRead q := rfl
@[simp] theorem State.pop_dataAddr (s : State) (q : Nat) : (s.pop).dataAddr q = s.dataAddr q := rfl
@[simp] theorem State.emit_getV (s : State) (o : Output) (q : Nibble) : (s.emit o).getV q = s.getV q := rfl
@[simp] theorem State.emit_memRead (s : State) (o : Output) (q : Addr) : (s.emit o).memRead q = s.memRead q := rfl
@[simp] theorem State.emit_dataAddr (s : State) (o : Output) (q : Nat) : (s.emit o).dataAddr q = s.dataAddr q := rfl
@[simp] theorem State.raise_getV (s : State) (d : Diagnostic) (q : Nibble) : (s.raise d).getV q = s.getV q := rfl
@[simp] theorem State.raise_memRead (s : State) (d : Diagnostic) (q : Addr) : (s.raise d).memRead q = s.memRead q := rfl
@[simp] theorem State.raise_dataAddr (s : State) (d : Diagnostic) (q : Nat) : (s.raise d).dataAddr q = s.dataAddr q := rfl
@[simp] theorem State.complete_getV (s : State) (q : Nibble) : (s.complete).getV q = s.getV q := rfl
@[simp] theorem State.complete_memRead (s : State) (q : Addr) : (s.complete).memRead q = s.memRead q := rfl
@[simp] theorem State.complete_dataAddr (s : State) (q : Nat) : (s.complete).dataAddr q = s.dataAddr q := rfl
@[simp] theorem State.refreshKeys_getV (s : State) (held : Config.Keys) (q : Nibble) : (s.refreshKeys held).getV q = s.getV q := rfl
@[simp] theorem State.refreshKeys_memRead (s : State) (held : Config.Keys) (q : Addr) : (s.refreshKeys held).memRead q = s.memRead q := rfl
@[simp] theorem State.refreshKeys_dataAddr (s : State) (held : Config.Keys) (q : Nat) : (s.refreshKeys held).dataAddr q = s.dataAddr q := rfl
@[simp] theorem State.sample_getV (s : State) (held : Config.Keys) (rnd : Byte) (q : Nibble) : (s.sample held rnd).getV q = s.getV q := rfl
@[simp] theorem State.sample_memRead (s : State) (held : Config.Keys) (rnd : Byte) (q : Addr) : (s.sample held rnd).memRead q = s.memRead q := rfl
@[simp] theorem State.sample_dataAddr (s : State) (held : Config.Keys) (rnd : Byte) (q : Nat) : (s.sample held rnd).dataAddr q = s.dataAddr q := rfl
@[simp] theorem State.fetch_getV (s : State) (q : Nibble) : (s.fetch).getV q = s.getV q := rfl
@[simp] theorem State.fetch_memRead (s : State) (q : Addr) : (s.fetch).memRead q = s.memRead q := rfl
@[simp] theorem State.fetch_dataAddr (s : State) (q : Nat) : (s.fetch).dataAddr q = s.dataAddr q := rfl
@[simp] theorem State.setFlag_memRead (s : State) (c : Bool) (q : Addr) : (s.setFlag c).memRead q = s.memRead q := rfl
@[simp] theorem State.setFlag_dataAddr (s : State) (c : Bool) (q : Nat) : (s.setFlag c).dataAddr q = s.dataAddr q := rfl
@[simp] theorem State.skipIf_getV (s : State) (c : Bool) (q : Nibble) : (s.skipIf c).getV q = s.getV q := by cases c <;> rfl
@[simp] theorem State.skipIf_memRead (s : State) (c : Bool) (q : Addr) : (s.skipIf c).memRead q = s.memRead q := by
  cases c <;> rfl
@[simp] theorem State.skipIf_dataAddr (s : State) (c : Bool) (q : Nat) : (s.skipIf c).dataAddr q = s.dataAddr q := by
  cases c <;> rfl

end Sys2Proof.Machine
end

