-- ==== Sys2Proof/Laws/Memory.lean ====
section
/-! SUPPORT. Memory: a read after a write, the canonical form kept by every operation, and canonical memories with equal
reads are equal. -/

namespace Sys2Proof.Machine

section
variable {rst : Nat → Byte} {m m' : Memory} {a b base : Nat} {w : Byte}

/-! ### Membership -/

theorem Memory.mem_of_mem_remove {c : Host.Cell} (h : c ∈ Memory.remove m a) : c ∈ m := by
  induction m with
  | nil => exact h
  | cons d rest ih =>
    simp only [Memory.remove] at h
    split at h
    · exact List.mem_cons_of_mem _ (ih h)
    · rcases List.mem_cons.mp h with rfl | h
      · exact List.mem_cons_self
      · exact List.mem_cons_of_mem _ (ih h)

theorem Memory.mem_insert_cases {c : Host.Cell} (h : c ∈ Memory.insert m a w) : c = (a, w) ∨ c ∈ m := by
  induction m with
  | nil => simpa [Memory.insert] using h
  | cons d rest ih =>
    simp only [Memory.insert] at h
    split at h
    · simpa using h
    · split at h
      · rcases List.mem_cons.mp h with h | h
        · exact .inl h
        · exact .inr (List.mem_cons_of_mem _ h)
      · rcases List.mem_cons.mp h with rfl | h
        · exact .inr List.mem_cons_self
        · exact (ih h).imp_right (List.mem_cons_of_mem _)

/-! ### The canonical form is kept -/

theorem Memory.wf_nil : Memory.wf rst [] := by simp [Memory.wf]

theorem Memory.wf_remove (h : Memory.wf rst m) : Memory.wf rst (Memory.remove m a) := by
  refine ⟨?_, fun c hc => h.2 c (Memory.mem_of_mem_remove hc)⟩
  obtain ⟨hp, -⟩ := h
  induction m with
  | nil => exact hp
  | cons d rest ih =>
    rw [List.pairwise_cons] at hp
    simp only [Memory.remove]
    split
    · exact ih hp.2
    · exact List.pairwise_cons.mpr ⟨fun c hc => hp.1 c (Memory.mem_of_mem_remove hc), ih hp.2⟩

theorem Memory.wf_insert (h : Memory.wf rst m) (ha : a < 4096) (hw : w ≠ rst a) :
    Memory.wf rst (Memory.insert m a w) := by
  refine ⟨?_, fun c hc => ?_⟩
  · obtain ⟨hp, -⟩ := h
    induction m with
    | nil => simp [Memory.insert]
    | cons d rest ih =>
      have hp' := List.pairwise_cons.mp hp
      simp only [Memory.insert]
      split
      · rename_i hlt
        refine List.pairwise_cons.mpr ⟨fun c hc => ?_, hp⟩
        rcases List.mem_cons.mp hc with rfl | hc
        · exact hlt
        · exact hlt.trans (hp'.1 c hc)
      · split
        · rename_i _ heq
          exact List.pairwise_cons.mpr ⟨fun c hc => heq ▸ hp'.1 c hc, hp'.2⟩
        · refine List.pairwise_cons.mpr ⟨fun c hc => ?_, ih hp'.2⟩
          rcases Memory.mem_insert_cases hc with rfl | hc
          · dsimp only; omega
          · exact hp'.1 c hc
  · rcases Memory.mem_insert_cases hc with rfl | hc
    · exact ⟨ha, hw⟩
    · exact h.2 c hc

theorem Memory.wf_write (h : Memory.wf rst m) (ha : a < 4096) : Memory.wf rst (Memory.write rst m a w) := by
  unfold Memory.write
  split
  · exact Memory.wf_remove h
  · exact Memory.wf_insert h ha ‹_›

theorem Memory.wf_load {bytes : List Byte} (h : Memory.wf rst m) (hb : base + bytes.length ≤ 4096) :
    Memory.wf rst (Memory.load rst m base bytes) := by
  induction bytes generalizing m base with
  | nil => exact h
  | cons v rest ih =>
    simp only [List.length_cons] at hb
    exact ih (Memory.wf_write h (by omega)) (by omega)

/-! ### Reads -/

theorem Memory.read_of_not_listed (h : ∀ c ∈ m, c.1 ≠ a) : Memory.read rst m a = rst a := by
  induction m with
  | nil => rfl
  | cons d rest ih =>
    have hd : ¬ a = d.1 := fun e => h d List.mem_cons_self e.symm
    simp only [Memory.read, if_neg hd]
    exact ih fun c hc => h c (List.mem_cons_of_mem _ hc)

theorem Memory.read_of_mem (hp : m.Pairwise (fun c d => c.1 < d.1)) {c : Host.Cell} (hc : c ∈ m) :
    Memory.read rst m c.1 = c.2 := by
  induction m with
  | nil => cases hc
  | cons d rest ih =>
    have hp' := List.pairwise_cons.mp hp
    rcases List.mem_cons.mp hc with rfl | hc
    · simp [Memory.read]
    · have hne : ¬ c.1 = d.1 := fun e => absurd (hp'.1 c hc) (by omega)
      simp only [Memory.read, if_neg hne]
      exact ih hp'.2 hc

theorem Memory.read_remove :
    Memory.read rst (Memory.remove m a) b = if b = a then rst a else Memory.read rst m b := by
  induction m with
  | nil => by_cases h : b = a <;> simp [Memory.remove, Memory.read, h]
  | cons d rest ih =>
    simp only [Memory.remove]
    split
    · rename_i hd
      rw [ih]
      by_cases hb : b = a
      · simp [hb]
      · simp [Memory.read, hb, hd ▸ hb]
    · rename_i hd
      simp only [Memory.read]
      rw [ih]
      by_cases hb : b = d.1
      · have : ¬ d.1 = a := fun e => hd e.symm
        simp [hb, this]
      · simp [hb]

theorem Memory.read_insert : Memory.read rst (Memory.insert m a w) b = if b = a then w else Memory.read rst m b := by
  induction m with
  | nil => simp [Memory.insert, Memory.read]
  | cons d rest ih =>
    simp only [Memory.insert]
    split
    · simp [Memory.read]
    · split
      · rename_i _ hd
        by_cases hb : b = a
        · simp [Memory.read, hb]
        · simp [Memory.read, hb, hd ▸ hb]
      · rename_i _ hd
        simp only [Memory.read]
        rw [ih]
        by_cases hb : b = d.1
        · have : ¬ d.1 = a := fun e => hd e.symm
          simp [hb, this]
        · simp [hb]

/-- A read after a write gives the byte written there and what was there before elsewhere, in any memory. -/
theorem Memory.read_write :
    Memory.read rst (Memory.write rst m a w) b = if b = a then w else Memory.read rst m b := by
  unfold Memory.write
  split
  · rename_i h
    rw [Memory.read_remove, h]
  · exact Memory.read_insert

/-- Two canonical memories that read alike are the same list. -/
theorem Memory.eq_of_reads (h : Memory.wf rst m) (h' : Memory.wf rst m')
    (hr : ∀ x, x < 4096 → Memory.read rst m x = Memory.read rst m' x) : m = m' := by
  have sub : ∀ {n n' : Memory}, Memory.wf rst n → Memory.wf rst n' →
      (∀ x, x < 4096 → Memory.read rst n x = Memory.read rst n' x) → ∀ c ∈ n, c ∈ n' := by
    intro n n' hn hn' hr c hc
    have hv : Memory.read rst n' c.1 = c.2 := by
      rw [← hr c.1 (hn.2 c hc).1, Memory.read_of_mem hn.1 hc]
    by_cases hl : ∃ d ∈ n', d.1 = c.1
    · obtain ⟨d, hd, e⟩ := hl
      have : d.2 = c.2 := by rw [← hv, ← e, Memory.read_of_mem hn'.1 hd]
      have : d = c := Prod.ext e this
      exact this ▸ hd
    · exact absurd (hv.symm.trans (Memory.read_of_not_listed fun d hd e => hl ⟨d, hd, e⟩)) (hn.2 c hc).2
  have nodup : ∀ {n : Memory}, Memory.wf rst n → n.Nodup := fun hn =>
    hn.1.imp fun hlt e => absurd (congrArg Prod.fst e) (by omega)
  have perm : m.Perm m' := (List.perm_ext_iff_of_nodup (nodup h) (nodup h')).mpr fun c =>
    ⟨sub h h' hr c, sub h' h (fun x hx => (hr x hx).symm) c⟩
  exact perm.eq_of_pairwise (fun c d _ _ hcd hdc => absurd hcd (by omega)) h.1 h'.1

end

/-! ### The state's memory -/

/-- The memory right after reset lists nothing, so it is canonical. -/
theorem State.reset_mem_wf : Memory.wf (resetByte State.reset.params) State.reset.mem := Memory.wf_nil

/-- `MemWrite` keeps the canonical form (R54). -/
theorem State.memWrite_wf {s : State} {a : Addr} {w : Byte} (h : Memory.wf (resetByte s.params) s.mem) :
    Memory.wf (resetByte (s.memWrite a w).params) (s.memWrite a w).mem :=
  Memory.wf_write h (by have := a.isLt; omega)

/-- `MemRead` after `MemWrite` (R53, R54). -/
@[simp] theorem State.memRead_memWrite (s : State) (a b : Addr) (w : Byte) :
    (s.memWrite a w).memRead b = if b = a then w else s.memRead b := by
  simp only [State.memRead, State.memWrite]
  rw [Memory.read_write]
  simp [BitVec.toNat_inj]

/-- In a canonical memory an address at or past 4096 is never listed. -/
theorem Memory.read_out_of_range {rst : Nat → Byte} {m : Memory} {a : Nat} (h : Memory.wf rst m) (ha : 4096 ≤ a) :
    Memory.read rst m a = rst a :=
  Memory.read_of_not_listed fun c hc e => absurd (h.2 c hc).1 (by omega)

end Sys2Proof.Machine
end

