-- ==== Sys2Proof/Laws/Ops.lean ====
section
/-! SUPPORT. One lemma per shared operation that says all it can do: registers, flag, keypad, pixels, the block store and
the block load. Meanings are reasoned about through these, not by unfolding the operations. -/

namespace Sys2Proof.Machine

/-! ### Registers and the flag -/

@[simp] theorem State.getV_setV (s : State) (r q : Nibble) (b : Byte) :
    (s.setV r b).getV q = if q = r then b else s.getV q := by
  simp only [State.getV, State.setV, Vector.getElem_set]
  by_cases h : q = r
  · simp [h]
  · have : ¬ r.toNat = q.toNat := fun e => h (BitVec.eq_of_toNat_eq e.symm)
    simp [h, this]

theorem State.getV_setV_self (s : State) (r : Nibble) (b : Byte) : (s.setV r b).getV r = b := by simp

theorem State.getV_setV_other (s : State) {r q : Nibble} (b : Byte) (h : q ≠ r) : (s.setV r b).getV q = s.getV q := by
  simp [h]

@[simp] theorem State.getV_setFlag (s : State) (c : Bool) (q : Nibble) :
    (s.setFlag c).getV q = if q = 0xF#4 then flagByte c else s.getV q :=
  State.getV_setV s 0xF#4 q (flagByte c)

@[simp] theorem State.setV_getV_memRead (s : State) (r : Nibble) (b : Byte) (a : Addr) :
    (s.setV r b).memRead a = s.memRead a := rfl

theorem flagByte_eq_one {c : Bool} : flagByte c = 0x01#8 ↔ c = true := by cases c <;> decide

theorem flagByte_eq_zero {c : Bool} : flagByte c = 0x00#8 ↔ c = false := by cases c <;> decide

/-- Two register files that read alike are the same. -/
theorem State.v_ext {s t : State} (h : ∀ r : Nibble, t.getV r = s.getV r) : t.v = s.v := by
  refine Vector.ext fun k hk => ?_
  have := h (BitVec.ofNat 4 k)
  simpa [State.getV, Nat.mod_eq_of_lt hk] using this

/-! ### The register walk of FX55 and FX65 -/

theorem regNumber_toNat {r : Nat} (h : r < 16) : (regNumber r).toNat = r := by
  simp [regNumber, Nat.mod_eq_of_lt h]

theorem regNumber_inj {r q : Nat} (hr : r < 16) (hq : q < 16) : regNumber r = regNumber q ↔ r = q := by
  constructor
  · intro e
    rw [← regNumber_toNat hr, e, regNumber_toNat hq]
  · exact fun e => e ▸ rfl

theorem regNumber_of_toNat (x : Nibble) : regNumber x.toNat = x := by simp [regNumber]

/-- Up to 4096 consecutive data addresses are distinct. -/
theorem State.dataAddr_inj (s : State) {j k : Nat} (hj : j < 4096) (hk : k < 4096) :
    s.dataAddr j = s.dataAddr k ↔ j = k := by
  constructor
  · intro e
    have := congrArg BitVec.toNat e
    simp only [State.dataAddr, BitVec.toNat_ofNat] at this
    omega
  · exact fun e => e ▸ rfl

theorem State.storeRegs_succ (s : State) (n : Nat) :
    s.storeRegs (n + 1) = (s.storeRegs n).memWrite ((s.storeRegs n).dataAddr n) ((s.storeRegs n).getV (regNumber n)) := by
  simp [State.storeRegs, List.range_succ]

theorem State.loadRegs_succ (s : State) (n : Nat) :
    s.loadRegs (n + 1) = (s.loadRegs n).setV (regNumber n) ((s.loadRegs n).memRead ((s.loadRegs n).dataAddr n)) := by
  simp [State.loadRegs, List.range_succ]

/-- A block store changes memory and the change log and nothing else. -/
theorem State.storeRegs_eq (s : State) (n : Nat) :
    s.storeRegs n = { s with mem := (s.storeRegs n).mem, log := (s.storeRegs n).log } := by
  induction n with
  | zero => rfl
  | succ n ih =>
    rw [State.storeRegs_succ]
    rw [ih]
    rfl

@[simp] theorem State.storeRegs_getV (s : State) (n : Nat) (q : Nibble) : (s.storeRegs n).getV q = s.getV q := by
  rw [State.storeRegs_eq]; rfl

@[simp] theorem State.storeRegs_dataAddr (s : State) (n k : Nat) : (s.storeRegs n).dataAddr k = s.dataAddr k := by
  rw [State.storeRegs_eq]; rfl

/-- The change log of a block store: one entry per register, ascending (R55, R184). -/
theorem State.storeRegs_log (s : State) (n : Nat) :
    (s.storeRegs n).log = s.log ++ (List.range n).map fun r => (s.dataAddr r, s.getV (regNumber r)) := by
  induction n with
  | zero => simp [State.storeRegs]
  | succ n ih => rw [State.storeRegs_succ]; simp [ih, List.range_succ]

/-- Memory after a block store: register `r` at the `r`-th data address. -/
theorem State.storeRegs_memRead_at (s : State) {n r : Nat} (hn : n ≤ 16) (hr : r < n) :
    (s.storeRegs n).memRead (s.dataAddr r) = s.getV (regNumber r) := by
  induction n with
  | zero => omega
  | succ n ih =>
    rw [State.storeRegs_succ]
    simp only [State.memRead_memWrite, State.storeRegs_dataAddr, State.storeRegs_getV,
      State.dataAddr_inj s (show r < 4096 by omega) (show n < 4096 by omega)]
    by_cases h : r = n
    · simp [h]
    · simpa [h] using ih (by omega) (by omega)

/-- Memory after a block store: nothing else is written. -/
theorem State.storeRegs_memRead_other (s : State) {n : Nat} {a : Addr} (ha : ∀ r < n, a ≠ s.dataAddr r) :
    (s.storeRegs n).memRead a = s.memRead a := by
  induction n with
  | zero => rfl
  | succ n ih =>
    rw [State.storeRegs_succ]
    simp only [State.memRead_memWrite, State.storeRegs_dataAddr]
    rw [if_neg (ha n (by omega)), ih fun r hr => ha r (by omega)]

theorem State.storeRegs_wf {s : State} (n : Nat) (h : Memory.wf (resetByte s.params) s.mem) :
    Memory.wf (resetByte (s.storeRegs n).params) (s.storeRegs n).mem := by
  induction n with
  | zero => exact h
  | succ n ih => rw [State.storeRegs_succ]; exact State.memWrite_wf ih

/-- A block load changes registers and nothing else. -/
theorem State.loadRegs_eq (s : State) (n : Nat) : s.loadRegs n = { s with v := (s.loadRegs n).v } := by
  induction n with
  | zero => rfl
  | succ n ih =>
    rw [State.loadRegs_succ]
    rw [ih]
    rfl

@[simp] theorem State.loadRegs_memRead (s : State) (n : Nat) (a : Addr) : (s.loadRegs n).memRead a = s.memRead a := by
  rw [State.loadRegs_eq]; rfl

@[simp] theorem State.loadRegs_dataAddr (s : State) (n k : Nat) : (s.loadRegs n).dataAddr k = s.dataAddr k := by
  rw [State.loadRegs_eq]; rfl

/-- Registers after a block load: the first `n` come from memory, the others are kept. -/
theorem State.loadRegs_getV (s : State) {n : Nat} (hn : n ≤ 16) (q : Nibble) :
    (s.loadRegs n).getV q = if q.toNat < n then s.memRead (s.dataAddr q.toNat) else s.getV q := by
  induction n with
  | zero => simp [State.loadRegs]
  | succ n ih =>
    rw [State.loadRegs_succ]
    simp only [State.getV_setV, State.loadRegs_memRead, State.loadRegs_dataAddr, ih (by omega)]
    by_cases h : q = regNumber n
    · have hq : q.toNat = n := h ▸ regNumber_toNat (by omega)
      rw [if_pos h, if_pos (by omega), hq]
    · have : q.toNat ≠ n := fun e => h (e ▸ (regNumber_of_toNat q).symm)
      simp only [if_neg h]
      by_cases h' : q.toNat < n
      · rw [if_pos h', if_pos (by omega)]
      · rw [if_neg h', if_neg (by omega)]

/-! ### Keypad -/

theorem mem_keyOrder (k : Fin 16) : k ∈ keyOrder := by revert k; decide

theorem keyOrder_sorted : keyOrder.Pairwise (· < ·) := by decide

/-- No last key exactly when no key qualifies (R106). -/
theorem lowestKey_eq_none {mode : Config.KeywaitMode} {prev now : Config.Keys} :
    lowestKey mode prev now = none ↔ ∀ k, keyQualifies mode prev now k = false := by
  simp [lowestKey, List.find?_eq_none, mem_keyOrder]

/-- The last key is the lowest that qualifies (R106). -/
theorem lowestKey_eq_some {mode : Config.KeywaitMode} {prev now : Config.Keys} {k : Fin 16} :
    lowestKey mode prev now = some k ↔
      keyQualifies mode prev now k = true ∧ ∀ j < k, keyQualifies mode prev now j = false := by
  have key : ∀ j, keyQualifies mode prev now j = true → ∃ i, lowestKey mode prev now = some i := fun j hj => by
    cases h : lowestKey mode prev now with
    | none => rw [lowestKey_eq_none] at h; simp [h j] at hj
    | some i => exact ⟨i, rfl⟩
  have fwd : ∀ i, lowestKey mode prev now = some i →
      keyQualifies mode prev now i = true ∧ ∀ j < i, keyQualifies mode prev now j = false := by
    intro i h
    obtain ⟨hi, as, bs, hlist, has⟩ := List.find?_eq_some_iff_append.mp h
    refine ⟨hi, fun j hj => ?_⟩
    have hjm : j ∈ as := by
      have hm : j ∈ as ++ i :: bs := hlist ▸ mem_keyOrder j
      have hs : (as ++ i :: bs).Pairwise (· < ·) := hlist ▸ keyOrder_sorted
      rcases List.mem_append.mp hm with hm | hm
      · exact hm
      · rcases List.mem_cons.mp hm with rfl | hm
        · exact absurd hj (lt_irrefl _)
        · exact absurd hj (not_lt.mpr (le_of_lt ((List.pairwise_cons.mp (List.pairwise_append.mp hs).2.1).1 j hm)))
    simpa using has j hjm
  constructor
  · exact fwd k
  · rintro ⟨hk, hlow⟩
    obtain ⟨i, hi⟩ := key k hk
    obtain ⟨hi', hlow'⟩ := fwd i hi
    rcases lt_trichotomy i k with h | h | h
    · simp [hlow i h] at hi'
    · exact h ▸ hi
    · simp [hlow' k h] at hk

/-- A key that qualifies is held, under either value of `KEYWAIT_MODE` (R106). -/
theorem held_of_keyQualifies {mode : Config.KeywaitMode} {prev now : Config.Keys} {k : Fin 16}
    (h : keyQualifies mode prev now k = true) : now[k] = true := by
  cases mode
  · exact h
  · exact (Bool.and_eq_true_iff.mp h).1

/-! ### Pixels -/

@[simp] theorem Screen.get_blank (x : Fin 64) (y : Fin 32) : Screen.get Screen.blank x y = false := by
  simp [Screen.get, Screen.blank]

/-- Flipping one pixel changes that pixel and no other. -/
@[simp] theorem Screen.get_flip (p : Screen) (x q : Fin 64) (y r : Fin 32) :
    Screen.get (Screen.flip p x y) q r = if q = x ∧ r = y then !Screen.get p q r else Screen.get p q r := by
  simp only [Screen.get, Screen.flip, Fin.getElem_fin, Vector.getElem_set]
  by_cases hy : r = y
  · subst hy
    by_cases hx : q = x
    · subst hx; simp
    · have : ¬ x.val = q.val := fun e => hx (Fin.ext e.symm)
      simp [hx, this]
  · have : ¬ y.val = r.val := fun e => hy (Fin.ext e.symm)
    simp [hy, this]

/-- Two screens that read alike are the same. -/
theorem Screen.ext {p q : Screen} (h : ∀ x y, Screen.get p x y = Screen.get q x y) : p = q :=
  Vector.ext fun y hy => Vector.ext fun x hx => h ⟨x, hx⟩ ⟨y, hy⟩

theorem column_eq_iff (x0 : Byte) (c : Nat) (x : Fin 64) : column x0 c = x ↔ (x0.toNat + c) % 64 = x.val :=
  ⟨fun e => congrArg Fin.val e, fun e => Fin.ext e⟩

theorem row_eq_iff (y0 : Byte) (r : Nat) (y : Fin 32) : row y0 r = y ↔ (y0.toNat + r) % 32 = y.val :=
  ⟨fun e => congrArg Fin.val e, fun e => Fin.ext e⟩

/-! ### Skips, timers, outcomes -/

theorem State.skipIf_eq (s : State) (c : Bool) : s.skipIf c = if c then s.setPc (s.pc + 2#16) else s := rfl

theorem countDown_toNat (b : Byte) : (countDown b).toNat = b.toNat - 1 := by
  unfold countDown
  have := b.isLt
  split
  · rw [BitVec.toNat_sub]
    simp only [BitVec.toNat_ofNat]
    omega
  · omega

theorem completed_eq_next {o : Host.Outcome State Fault Refusal} {t : State} :
    completed o = .next t ↔ ∃ u, o = .next u ∧ t = u.complete := by
  cases o <;> simp [completed, eq_comm]

end Sys2Proof.Machine
end

