-- ==== Sys2Proof/Laws/Frame.lean ====
section
/-! SUPPORT. Frames: how they compose, and the frame of every shared operation. -/

namespace Sys2Proof.Machine

variable {s t u : State} {w w' : Loc → Prop}

theorem Loc.same_refl (s : State) (l : Loc) : Loc.same s s l := by cases l <;> rfl

theorem Loc.same_trans {l : Loc} (h : Loc.same s t l) (h' : Loc.same t u l) : Loc.same s u l := by
  cases l <;> exact Eq.trans h' h

theorem Frame.refl (s : State) : Frame w s s := fun l _ => Loc.same_refl s l

theorem Frame.mono (h : Frame w s t) (hw : ∀ l, w l → w' l) : Frame w' s t := fun l hl => h l fun h' => hl (hw l h')

theorem Frame.trans (h : Frame w s t) (h' : Frame w t u) : Frame w s u :=
  fun l hl => Loc.same_trans (h l hl) (h' l hl)

/-- Two steps of an instruction with different written places: together they write either. -/
theorem Frame.seq (h : Frame w s t) (h' : Frame w' t u) : Frame (fun l => w l ∨ w' l) s u :=
  (h.mono fun _ => .inl).trans (h'.mono fun _ => .inr)

theorem frame_setV (s : State) (r : Nibble) (b : Byte) : Frame (· = .v r) s (s.setV r b) := by
  intro l hl
  cases l with
  | v q => exact State.getV_setV_other s b fun e => hl (e ▸ rfl)
  | _ => rfl

theorem frame_setFlag (s : State) (c : Bool) : Frame (· = .v 0xF#4) s (s.setFlag c) := frame_setV s 0xF#4 (flagByte c)

theorem frame_setI (s : State) (v : Word) : Frame (· = .i) s (s.setI v) := by
  intro l hl
  cases l with
  | i => exact absurd rfl hl
  | _ => rfl

theorem frame_setPc (s : State) (v : Word) : Frame (· = .pc) s (s.setPc v) := by
  intro l hl
  cases l with
  | pc => exact absurd rfl hl
  | _ => rfl

theorem frame_skip (s : State) : Frame (· = .pc) s s.skip := frame_setPc s _

theorem frame_rewind (s : State) : Frame (· = .pc) s s.rewind := frame_setPc s _

theorem frame_skipIf (s : State) (c : Bool) : Frame (· = .pc) s (s.skipIf c) := by
  cases c
  · exact Frame.refl s
  · exact frame_skip s

theorem frame_setDt (s : State) (b : Byte) : Frame (· = .dt) s (s.setDt b) := by
  intro l hl
  cases l with
  | dt => exact absurd rfl hl
  | _ => rfl

theorem frame_setSt (s : State) (b : Byte) : Frame (· = .st) s (s.setSt b) := by
  intro l hl
  cases l with
  | st => exact absurd rfl hl
  | _ => rfl

/-- A new screen changes the pixels that differ, and nothing else. -/
theorem frame_setPix (s : State) (p : Screen) :
    Frame (fun l => ∃ x y, l = .pixel x y ∧ Screen.get p x y ≠ Screen.get s.pix x y) s (s.setPix p) := by
  intro l hl
  cases l with
  | pixel x y => exact Classical.byContradiction fun h => hl ⟨x, y, rfl, h⟩
  | _ => rfl

theorem frame_push (s : State) (v : Word) (h : s.sp.val < 16) :
    Frame (fun l => l = .stack ⟨s.sp.val, h⟩ ∨ l = .sp) s (s.push v h) := by
  intro l hl
  cases l with
  | sp => exact absurd (.inr rfl) hl
  | stack k =>
    have hk : s.sp.val ≠ k.val := fun e => hl (.inl (congrArg Loc.stack (Fin.ext e.symm)))
    simp [Loc.same, State.push, hk]
  | _ => rfl

theorem frame_pop (s : State) : Frame (· = .sp) s s.pop := by
  intro l hl
  cases l with
  | sp => exact absurd rfl hl
  | _ => rfl

theorem frame_emit (s : State) (o : Output) : Frame (· = .outputs) s (s.emit o) := by
  intro l hl
  cases l with
  | outputs => exact absurd rfl hl
  | _ => rfl

theorem frame_raise (s : State) (d : Diagnostic) : Frame (· = .outputs) s (s.raise d) := frame_emit s _

theorem frame_complete (s : State) : Frame (· = .outputs) s s.complete := frame_emit s _

theorem frame_memWrite (s : State) (a : Addr) (v : Byte) :
    Frame (fun l => l = .byte a ∨ l = .log) s (s.memWrite a v) := by
  intro l hl
  cases l with
  | log => exact absurd (.inr rfl) hl
  | byte b =>
    have hb : b ≠ a := fun e => hl (.inl (e ▸ rfl))
    simp [Loc.same, hb]
  | _ => rfl

theorem frame_storeRegs (s : State) (n : Nat) :
    Frame (fun l => (∃ r < n, l = .byte (s.dataAddr r)) ∨ l = .log) s (s.storeRegs n) := by
  intro l hl
  cases l with
  | log => exact absurd (.inr rfl) hl
  | byte b => exact State.storeRegs_memRead_other s fun r hr e => hl (.inl ⟨r, hr, e ▸ rfl⟩)
  | _ => rw [State.storeRegs_eq]; rfl

theorem frame_loadRegs (s : State) {n : Nat} (hn : n ≤ 16) :
    Frame (fun l => ∃ r : Nibble, r.toNat < n ∧ l = .v r) s (s.loadRegs n) := by
  intro l hl
  cases l with
  | v q =>
    have hq : ¬ q.toNat < n := fun h => hl ⟨q, h, rfl⟩
    simp [Loc.same, State.loadRegs_getV s hn, hq]
  | _ => rw [State.loadRegs_eq]; rfl

theorem frame_sample (s : State) (held : Config.Keys) (rnd : Byte) :
    Frame (fun l => (∃ k, l = .key k) ∨ l = .lastKey ∨ l = .rnd) s (s.sample held rnd) := by
  intro l hl
  cases l with
  | key k => exact absurd (.inl ⟨k, rfl⟩) hl
  | lastKey => exact absurd (.inr (.inl rfl)) hl
  | rnd => exact absurd (.inr (.inr rfl)) hl
  | _ => rfl

theorem frame_fetch (s : State) : Frame (fun l => l = .opcode ∨ l = .pc) s s.fetch := by
  intro l hl
  cases l with
  | opcode => exact absurd (.inl rfl) hl
  | pc => exact absurd (.inr rfl) hl
  | _ => rfl

end Sys2Proof.Machine
end

