-- ==== Sys2Proof/Laws/PerInstr.lean ====
section
/-! SUPPORT. The per-instruction family InRow: the encoding of an instruction lies in its own row of opcode_table.json, that
is, masked with the row's mask it is the row's match (30_encoding R90: "a word `op` selects a row when `op & mask == match`"). -/

namespace Sys2Proof.Laws.InRow

/-- The match and the mask of an instruction's row, as opcode_table.json gives them. -/
def rowOf : Instr → Word × Word
  | .cls => (0x0000#16, 0xF00F#16)
  | .ret => (0x000E#16, 0xF00F#16)
  | .jmp _ => (0x1000#16, 0xF000#16)
  | .call _ => (0x2000#16, 0xF000#16)
  | .seImm _ _ => (0x3000#16, 0xF000#16)
  | .sneImm _ _ => (0x4000#16, 0xF000#16)
  | .seReg _ _ => (0x5000#16, 0xF000#16)
  | .ldImm _ _ => (0x6000#16, 0xF000#16)
  | .addImm _ _ => (0x7000#16, 0xF000#16)
  | .ldReg _ _ => (0x8000#16, 0xF00F#16)
  | .orReg _ _ => (0x8001#16, 0xF00F#16)
  | .andReg _ _ => (0x8002#16, 0xF00F#16)
  | .xorReg _ _ => (0x8003#16, 0xF00F#16)
  | .addReg _ _ => (0x8004#16, 0xF00F#16)
  | .subReg _ _ => (0x8005#16, 0xF00F#16)
  | .shr _ _ => (0x8006#16, 0xF00F#16)
  | .subn _ _ => (0x8007#16, 0xF00F#16)
  | .shl _ _ => (0x800E#16, 0xF00F#16)
  | .sneReg _ _ => (0x9000#16, 0xF000#16)
  | .ldI _ => (0xA000#16, 0xF000#16)
  | .jmpV0 _ => (0xB000#16, 0xF000#16)
  | .rnd _ _ => (0xC000#16, 0xF000#16)
  | .drw _ _ _ => (0xD000#16, 0xF000#16)
  | .skp _ => (0xE09E#16, 0xF0FF#16)
  | .sknp _ => (0xE0A1#16, 0xF0FF#16)
  | .ldVxDt _ => (0xF007#16, 0xF0FF#16)
  | .ldVxK _ => (0xF00A#16, 0xF0FF#16)
  | .ldDt _ => (0xF015#16, 0xF0FF#16)
  | .ldSt _ => (0xF018#16, 0xF0FF#16)
  | .addI _ => (0xF01E#16, 0xF0FF#16)
  | .ldF _ => (0xF029#16, 0xF0FF#16)
  | .ldB _ => (0xF033#16, 0xF0FF#16)
  | .ldMemVx _ => (0xF055#16, 0xF0FF#16)
  | .ldVxMem _ => (0xF065#16, 0xF0FF#16)

/-- The word of the instruction selects its row. -/
def Statement (i : Instr) : Prop := encode i &&& (rowOf i).2 = (rowOf i).1

theorem wordA_key (m : Word) (k : Nibble) (nnn : Addr) (hk : fieldK m = k) (hx : fieldX m = 0x0#4)
    (hy : fieldY m = 0x0#4) (hn : fieldN m = 0x0#4) : wordA k nnn &&& 0xF000#16 = m := by
  apply word_ext
  · rw [fieldK_and, fieldK_wordA, show fieldK 0xF000#16 = 0xF#4 from rfl, nibble_and_ones, hk]
  · rw [fieldX_and, show fieldX 0xF000#16 = 0x0#4 from rfl, hx]; exact BitVec.and_zero
  · rw [fieldY_and, show fieldY 0xF000#16 = 0x0#4 from rfl, hy]; exact BitVec.and_zero
  · rw [fieldN_and, show fieldN 0xF000#16 = 0x0#4 from rfl, hn]; exact BitVec.and_zero

theorem wordXNN_key (m : Word) (k x : Nibble) (nn : Byte) (hk : fieldK m = k) (hx : fieldX m = 0x0#4)
    (hy : fieldY m = 0x0#4) (hn : fieldN m = 0x0#4) : wordXNN k x nn &&& 0xF000#16 = m := by
  apply word_ext
  · rw [fieldK_and, fieldK_wordXNN, show fieldK 0xF000#16 = 0xF#4 from rfl, nibble_and_ones, hk]
  · rw [fieldX_and, show fieldX 0xF000#16 = 0x0#4 from rfl, hx]; exact BitVec.and_zero
  · rw [fieldY_and, show fieldY 0xF000#16 = 0x0#4 from rfl, hy]; exact BitVec.and_zero
  · rw [fieldN_and, show fieldN 0xF000#16 = 0x0#4 from rfl, hn]; exact BitVec.and_zero

theorem wordXNN_keySub (m : Word) (k x : Nibble) (nn : Byte) (hk : fieldK m = k) (hx : fieldX m = 0x0#4)
    (hy : fieldY m = nn.extractLsb' 4 4) (hn : fieldN m = nn.extractLsb' 0 4) :
    wordXNN k x nn &&& 0xF0FF#16 = m := by
  apply word_ext
  · rw [fieldK_and, fieldK_wordXNN, show fieldK 0xF0FF#16 = 0xF#4 from rfl, nibble_and_ones, hk]
  · rw [fieldX_and, show fieldX 0xF0FF#16 = 0x0#4 from rfl, hx]; exact BitVec.and_zero
  · rw [fieldY_and, fieldY_wordXNN, show fieldY 0xF0FF#16 = 0xF#4 from rfl, nibble_and_ones, hy]
  · rw [fieldN_and, fieldN_wordXNN, show fieldN 0xF0FF#16 = 0xF#4 from rfl, nibble_and_ones, hn]

theorem wordXYN_key (m : Word) (k x y n : Nibble) (hk : fieldK m = k) (hx : fieldX m = 0x0#4)
    (hy : fieldY m = 0x0#4) (hn : fieldN m = 0x0#4) : wordXYN k x y n &&& 0xF000#16 = m := by
  apply word_ext
  · rw [fieldK_and, fieldK_wordXYN, show fieldK 0xF000#16 = 0xF#4 from rfl, nibble_and_ones, hk]
  · rw [fieldX_and, show fieldX 0xF000#16 = 0x0#4 from rfl, hx]; exact BitVec.and_zero
  · rw [fieldY_and, show fieldY 0xF000#16 = 0x0#4 from rfl, hy]; exact BitVec.and_zero
  · rw [fieldN_and, show fieldN 0xF000#16 = 0x0#4 from rfl, hn]; exact BitVec.and_zero

theorem wordXYN_keySub (m : Word) (k x y n : Nibble) (hk : fieldK m = k) (hx : fieldX m = 0x0#4)
    (hy : fieldY m = 0x0#4) (hn : fieldN m = n) : wordXYN k x y n &&& 0xF00F#16 = m := by
  apply word_ext
  · rw [fieldK_and, fieldK_wordXYN, show fieldK 0xF00F#16 = 0xF#4 from rfl, nibble_and_ones, hk]
  · rw [fieldX_and, show fieldX 0xF00F#16 = 0x0#4 from rfl, hx]; exact BitVec.and_zero
  · rw [fieldY_and, show fieldY 0xF00F#16 = 0x0#4 from rfl, hy]; exact BitVec.and_zero
  · rw [fieldN_and, fieldN_wordXYN, show fieldN 0xF00F#16 = 0xF#4 from rfl, nibble_and_ones, hn]

theorem cls : Statement .cls := rfl
theorem ret : Statement .ret := rfl
theorem jmp (nnn : Addr) : Statement (.jmp nnn) := wordA_key 0x1000#16 _ _ rfl rfl rfl rfl
theorem call (nnn : Addr) : Statement (.call nnn) := wordA_key 0x2000#16 _ _ rfl rfl rfl rfl
theorem seImm (x : Nibble) (nn : Byte) : Statement (.seImm x nn) := wordXNN_key 0x3000#16 _ _ _ rfl rfl rfl rfl
theorem sneImm (x : Nibble) (nn : Byte) : Statement (.sneImm x nn) := wordXNN_key 0x4000#16 _ _ _ rfl rfl rfl rfl
theorem seReg (x : Nibble) (y : Nibble) : Statement (.seReg x y) := wordXYN_key 0x5000#16 _ _ _ _ rfl rfl rfl rfl
theorem ldImm (x : Nibble) (nn : Byte) : Statement (.ldImm x nn) := wordXNN_key 0x6000#16 _ _ _ rfl rfl rfl rfl
theorem addImm (x : Nibble) (nn : Byte) : Statement (.addImm x nn) := wordXNN_key 0x7000#16 _ _ _ rfl rfl rfl rfl
theorem ldReg (x : Nibble) (y : Nibble) : Statement (.ldReg x y) := wordXYN_keySub 0x8000#16 _ _ _ _ rfl rfl rfl rfl
theorem orReg (x : Nibble) (y : Nibble) : Statement (.orReg x y) := wordXYN_keySub 0x8001#16 _ _ _ _ rfl rfl rfl rfl
theorem andReg (x : Nibble) (y : Nibble) : Statement (.andReg x y) := wordXYN_keySub 0x8002#16 _ _ _ _ rfl rfl rfl rfl
theorem xorReg (x : Nibble) (y : Nibble) : Statement (.xorReg x y) := wordXYN_keySub 0x8003#16 _ _ _ _ rfl rfl rfl rfl
theorem addReg (x : Nibble) (y : Nibble) : Statement (.addReg x y) := wordXYN_keySub 0x8004#16 _ _ _ _ rfl rfl rfl rfl
theorem subReg (x : Nibble) (y : Nibble) : Statement (.subReg x y) := wordXYN_keySub 0x8005#16 _ _ _ _ rfl rfl rfl rfl
theorem shr (x : Nibble) (y : Nibble) : Statement (.shr x y) := wordXYN_keySub 0x8006#16 _ _ _ _ rfl rfl rfl rfl
theorem subn (x : Nibble) (y : Nibble) : Statement (.subn x y) := wordXYN_keySub 0x8007#16 _ _ _ _ rfl rfl rfl rfl
theorem shl (x : Nibble) (y : Nibble) : Statement (.shl x y) := wordXYN_keySub 0x800E#16 _ _ _ _ rfl rfl rfl rfl
theorem sneReg (x : Nibble) (y : Nibble) : Statement (.sneReg x y) := wordXYN_key 0x9000#16 _ _ _ _ rfl rfl rfl rfl
theorem ldI (nnn : Addr) : Statement (.ldI nnn) := wordA_key 0xA000#16 _ _ rfl rfl rfl rfl
theorem jmpV0 (nnn : Addr) : Statement (.jmpV0 nnn) := wordA_key 0xB000#16 _ _ rfl rfl rfl rfl
theorem rnd (x : Nibble) (nn : Byte) : Statement (.rnd x nn) := wordXNN_key 0xC000#16 _ _ _ rfl rfl rfl rfl
theorem drw (x : Nibble) (y : Nibble) (n : Nibble) : Statement (.drw x y n) := wordXYN_key 0xD000#16 _ _ _ _ rfl rfl rfl rfl
theorem skp (x : Nibble) : Statement (.skp x) := wordXNN_keySub 0xE09E#16 _ _ _ rfl rfl rfl rfl
theorem sknp (x : Nibble) : Statement (.sknp x) := wordXNN_keySub 0xE0A1#16 _ _ _ rfl rfl rfl rfl
theorem ldVxDt (x : Nibble) : Statement (.ldVxDt x) := wordXNN_keySub 0xF007#16 _ _ _ rfl rfl rfl rfl
theorem ldVxK (x : Nibble) : Statement (.ldVxK x) := wordXNN_keySub 0xF00A#16 _ _ _ rfl rfl rfl rfl
theorem ldDt (x : Nibble) : Statement (.ldDt x) := wordXNN_keySub 0xF015#16 _ _ _ rfl rfl rfl rfl
theorem ldSt (x : Nibble) : Statement (.ldSt x) := wordXNN_keySub 0xF018#16 _ _ _ rfl rfl rfl rfl
theorem addI (x : Nibble) : Statement (.addI x) := wordXNN_keySub 0xF01E#16 _ _ _ rfl rfl rfl rfl
theorem ldF (x : Nibble) : Statement (.ldF x) := wordXNN_keySub 0xF029#16 _ _ _ rfl rfl rfl rfl
theorem ldB (x : Nibble) : Statement (.ldB x) := wordXNN_keySub 0xF033#16 _ _ _ rfl rfl rfl rfl
theorem ldMemVx (x : Nibble) : Statement (.ldMemVx x) := wordXNN_keySub 0xF055#16 _ _ _ rfl rfl rfl rfl
theorem ldVxMem (x : Nibble) : Statement (.ldVxMem x) := wordXNN_keySub 0xF065#16 _ _ _ rfl rfl rfl rfl

end Sys2Proof.Laws.InRow
end

