-- ==== Sys2Proof/Tests/Slice0.lean ====
section
/-! SUPPORT. The model's own tests. Expected results come from the spec: the words from the opcode map of 30_encoding R90,
the vectors V-… from 95_test_vectors.md. Then the witnesses: for every statement with hypotheses, states and operands that
meet them. -/

namespace Sys2Proof.Tests
open Sys2Proof.Machine Sys2Proof.Claims

/-! ### Helpers -/

/-- The outcome is a next state with a property. -/
def nextWith (o : Host.Outcome State Fault Refusal) (p : State → Bool) : Bool :=
  match o with
  | .next t => p t
  | .fault _ => false
  | .refused _ => false

theorem exists_of_nextWith {o : Host.Outcome State Fault Refusal} {p : State → Bool} (h : nextWith o p = true) :
    ∃ t, o = .next t ∧ p t = true := by
  cases o with
  | next t => exact ⟨t, rfl, h⟩
  | fault _ => cases h
  | refused _ => cases h

/-- A block that is ready, everything else as after `initialise()`. -/
def ready : State := { State.reset with life := .ready }

/-- The ready block with one register set. -/
def with1 (r : Nibble) (b : Byte) : State := ready.setV r b

/-- The ready block with two registers set. -/
def with2 (r : Nibble) (b : Byte) (q : Nibble) (c : Byte) : State := (ready.setV r b).setV q c

/-- A byte placed in memory, unlogged. -/
def put (s : State) (a : Nat) (b : Byte) : State :=
  { s with mem := Memory.write (resetByte s.params) s.mem a b }

/-- A word placed at an address, and PC there. -/
def atWord (s : State) (a : Nat) (w : Word) : State :=
  { put (put s a (firstByte w)) (a + 1) (secondByte w) with pc := BitVec.ofNat 16 a }

/-- No key held. -/
def noKeys : Config.Keys := Vector.replicate 16 false

/-- One key held. -/
def oneKey (k : Fin 16) : Config.Keys := noKeys.set k.val true

/-- Two keys held. -/
def twoKeys (j k : Fin 16) : Config.Keys := (oneKey j).set k.val true

/-! ### Decoding: every constructor, by a word written out from R90, with the row's match and mask -/

theorem test_decode_cls : 0x00E0#16 &&& 0xF00F#16 = 0x0000#16 ∧ decode 0x00E0#16 = .ok .cls := by decide
theorem test_decode_ret : 0x00EE#16 &&& 0xF00F#16 = 0x000E#16 ∧ decode 0x00EE#16 = .ok .ret := by decide
theorem test_decode_jmp : 0x1AAA#16 &&& 0xF000#16 = 0x1000#16 ∧ decode 0x1AAA#16 = .ok (.jmp 0xAAA#12) := by decide
theorem test_decode_call : 0x2ABC#16 &&& 0xF000#16 = 0x2000#16 ∧ decode 0x2ABC#16 = .ok (.call 0xABC#12) := by decide
theorem test_decode_seImm :
    0x3105#16 &&& 0xF000#16 = 0x3000#16 ∧ decode 0x3105#16 = .ok (.seImm 0x1#4 0x05#8) := by decide
theorem test_decode_sneImm :
    0x4205#16 &&& 0xF000#16 = 0x4000#16 ∧ decode 0x4205#16 = .ok (.sneImm 0x2#4 0x05#8) := by decide
theorem test_decode_seReg :
    0x5120#16 &&& 0xF000#16 = 0x5000#16 ∧ decode 0x5120#16 = .ok (.seReg 0x1#4 0x2#4) := by decide
theorem test_decode_ldImm :
    0x6AFF#16 &&& 0xF000#16 = 0x6000#16 ∧ decode 0x6AFF#16 = .ok (.ldImm 0xA#4 0xFF#8) := by decide
theorem test_decode_addImm :
    0x71FE#16 &&& 0xF000#16 = 0x7000#16 ∧ decode 0x71FE#16 = .ok (.addImm 0x1#4 0xFE#8) := by decide
theorem test_decode_ldReg :
    0x82F0#16 &&& 0xF00F#16 = 0x8000#16 ∧ decode 0x82F0#16 = .ok (.ldReg 0x2#4 0xF#4) := by decide
theorem test_decode_orReg :
    0x8121#16 &&& 0xF00F#16 = 0x8001#16 ∧ decode 0x8121#16 = .ok (.orReg 0x1#4 0x2#4) := by decide
theorem test_decode_andReg :
    0x8342#16 &&& 0xF00F#16 = 0x8002#16 ∧ decode 0x8342#16 = .ok (.andReg 0x3#4 0x4#4) := by decide
theorem test_decode_xorReg :
    0x8563#16 &&& 0xF00F#16 = 0x8003#16 ∧ decode 0x8563#16 = .ok (.xorReg 0x5#4 0x6#4) := by decide
theorem test_decode_addReg :
    0x8AB4#16 &&& 0xF00F#16 = 0x8004#16 ∧ decode 0x8AB4#16 = .ok (.addReg 0xA#4 0xB#4) := by decide
theorem test_decode_subReg :
    0x8785#16 &&& 0xF00F#16 = 0x8005#16 ∧ decode 0x8785#16 = .ok (.subReg 0x7#4 0x8#4) := by decide
theorem test_decode_shr :
    0x8126#16 &&& 0xF00F#16 = 0x8006#16 ∧ decode 0x8126#16 = .ok (.shr 0x1#4 0x2#4) := by decide
theorem test_decode_subn :
    0x8F17#16 &&& 0xF00F#16 = 0x8007#16 ∧ decode 0x8F17#16 = .ok (.subn 0xF#4 0x1#4) := by decide
theorem test_decode_shl :
    0x8C1E#16 &&& 0xF00F#16 = 0x800E#16 ∧ decode 0x8C1E#16 = .ok (.shl 0xC#4 0x1#4) := by decide
theorem test_decode_sneReg :
    0x9CD0#16 &&& 0xF000#16 = 0x9000#16 ∧ decode 0x9CD0#16 = .ok (.sneReg 0xC#4 0xD#4) := by decide
theorem test_decode_ldI : 0xA123#16 &&& 0xF000#16 = 0xA000#16 ∧ decode 0xA123#16 = .ok (.ldI 0x123#12) := by decide
theorem test_decode_jmpV0 : 0xBFFF#16 &&& 0xF000#16 = 0xB000#16 ∧ decode 0xBFFF#16 = .ok (.jmpV0 0xFFF#12) := by decide
theorem test_decode_rnd :
    0xC30F#16 &&& 0xF000#16 = 0xC000#16 ∧ decode 0xC30F#16 = .ok (.rnd 0x3#4 0x0F#8) := by decide
theorem test_decode_drw :
    0xD123#16 &&& 0xF000#16 = 0xD000#16 ∧ decode 0xD123#16 = .ok (.drw 0x1#4 0x2#4 0x3#4) := by decide
theorem test_decode_skp : 0xE59E#16 &&& 0xF0FF#16 = 0xE09E#16 ∧ decode 0xE59E#16 = .ok (.skp 0x5#4) := by decide
theorem test_decode_sknp : 0xE6A1#16 &&& 0xF0FF#16 = 0xE0A1#16 ∧ decode 0xE6A1#16 = .ok (.sknp 0x6#4) := by decide
theorem test_decode_ldVxDt : 0xF107#16 &&& 0xF0FF#16 = 0xF007#16 ∧ decode 0xF107#16 = .ok (.ldVxDt 0x1#4) := by decide
theorem test_decode_ldVxK : 0xF30A#16 &&& 0xF0FF#16 = 0xF00A#16 ∧ decode 0xF30A#16 = .ok (.ldVxK 0x3#4) := by decide
theorem test_decode_ldDt : 0xF415#16 &&& 0xF0FF#16 = 0xF015#16 ∧ decode 0xF415#16 = .ok (.ldDt 0x4#4) := by decide
theorem test_decode_ldSt : 0xF318#16 &&& 0xF0FF#16 = 0xF018#16 ∧ decode 0xF318#16 = .ok (.ldSt 0x3#4) := by decide
theorem test_decode_addI : 0xF21E#16 &&& 0xF0FF#16 = 0xF01E#16 ∧ decode 0xF21E#16 = .ok (.addI 0x2#4) := by decide
theorem test_decode_ldF : 0xF729#16 &&& 0xF0FF#16 = 0xF029#16 ∧ decode 0xF729#16 = .ok (.ldF 0x7#4) := by decide
theorem test_decode_ldB : 0xF833#16 &&& 0xF0FF#16 = 0xF033#16 ∧ decode 0xF833#16 = .ok (.ldB 0x8#4) := by decide
theorem test_decode_ldMemVx : 0xF955#16 &&& 0xF0FF#16 = 0xF055#16 ∧ decode 0xF955#16 = .ok (.ldMemVx 0x9#4) := by decide
theorem test_decode_ldVxMem : 0xF265#16 &&& 0xF0FF#16 = 0xF065#16 ∧ decode 0xF265#16 = .ok (.ldVxMem 0x2#4) := by decide

/-- V-E1, V-E2, V-E5, V-E6, V-E7: words that are no instruction. -/
theorem test_decode_unrecognized :
    decode 0x8AB9#16 = .error (.unrecognized 0x8AB9#16) ∧ decode 0x0123#16 = .error (.unrecognized 0x0123#16) ∧
    decode 0xE09F#16 = .error (.unrecognized 0xE09F#16) ∧ decode 0xF0FF#16 = .error (.unrecognized 0xF0FF#16) ∧
    decode 0x800F#16 = .error (.unrecognized 0x800F#16) := by decide

/-- V-E3, V-E4, V-E8: aliases decode as the canonical instruction. -/
theorem test_decode_aliases :
    decode 0x0120#16 = .ok .cls ∧ decode 0x0FFE#16 = .ok .ret ∧ decode 0x5127#16 = .ok (.seReg 0x1#4 0x2#4) := by decide

/-- Bytes: the first byte is bits 15:8 (R58), every instruction takes two (R80), fewer are refused by name. -/
theorem test_decode_bytes :
    decodeBytes [0x1A#8, 0xAA#8, 0x77#8] = .ok (.jmp 0xAAA#12, [0x77#8]) ∧
    decodeBytes [0x1A#8] = .error .tooShort ∧ decodeBytes [] = .error .tooShort := by decide

/-- The table's numbering: one 16-bit word, bits above `nbits` zero. -/
theorem test_decode_table_word :
    decodeTableWord 16 0x1AAA = some (.jmp 0xAAA#12) ∧ decodeTableWord 16 0xF265 = some (.ldVxMem 0x2#4) ∧
    decodeTableWord 16 0x8AB9 = none := by decide

/-- The encoder spells the canonical column of R90. -/
theorem test_encode_samples :
    encode .cls = 0x00E0#16 ∧ encode (.seReg 0x1#4 0x2#4) = 0x5120#16 ∧ encode (.drw 0x1#4 0x2#4 0x3#4) = 0xD123#16 ∧
    encode (.call 0xABC#12) = 0x2ABC#16 ∧ encode (.skp 0x5#4) = 0xE59E#16 := by decide

/-! ### WellFormed: the spelling check of a word (R93); the types leave no ill-formed instruction (R83, R92) -/

theorem test_wellformed_refuses_key0 : canonicalWord 0x0120#16 = false ∧ canonicalWord 0x00E0#16 = true := by decide
theorem test_wellformed_refuses_key5 : canonicalWord 0x5127#16 = false ∧ canonicalWord 0x5120#16 = true := by decide
theorem test_wellformed_refuses_key9 : canonicalWord 0x9001#16 = false ∧ canonicalWord 0x9000#16 = true := by decide
theorem test_wellformed_extremes :
    WellFormed (.jmp 0xFFF#12) = true ∧ WellFormed (.drw 0xF#4 0xF#4 0x0#4) = true ∧
    WellFormed (.ldImm 0xF#4 0xFF#8) = true := by decide

/-! ### Instructions, one step each -/

/-- V-D7. -/
theorem test_cls :
    nextWith (exec .cls (ready.setPix (Screen.flip Screen.blank 1 1)))
      (fun t => Screen.get t.pix 1 1 == false && t.getV 0xF#4 == 0x00#8) = true := by decide

/-- V-C4: the entry is kept. -/
theorem test_ret :
    nextWith (exec .ret { ready with sp := 1, stack := ready.stack.set 0 0x206#16, pc := 0x216#16 })
      (fun t => t.pc == 0x206#16 && t.sp == 0 && t.stack[0] == 0x206#16) = true := by decide

/-- V-C6. -/
theorem test_ret_underflow :
    nextWith (exec .ret { ready with pc := 0x302#16, opcode := 0x00EE#16 })
      (fun t => t.pc == 0x302#16 && t.sp == 0 &&
        t.outputs == [.diagnostic (.stackUnderflow 0x300#16 0x00EE#16)]) = true := by decide

/-- V-C1. -/
theorem test_jmp : nextWith (exec (.jmp 0xAAA#12) ready) (fun t => t.pc == 0xAAA#16) = true := by decide

/-- V-C3 and V-C7: the saved address is PC after the fetch advance. -/
theorem test_call :
    nextWith (exec (.call 0x210#12) { ready with pc := 0x1000#16 })
      (fun t => t.stack[0] == 0x1000#16 && t.sp == 1 && t.pc == 0x210#16) = true := by decide

/-- V-C5. -/
theorem test_call_overflow :
    nextWith (exec (.call 0xABC#12) { ready with pc := 0x302#16, opcode := 0x2ABC#16, sp := 16 })
      (fun t => t.pc == 0x302#16 && t.sp == 16 &&
        t.outputs == [.diagnostic (.stackOverflow 0x300#16 0x2ABC#16)]) = true := by decide

/-- V-C8, V-C9. -/
theorem test_seImm :
    nextWith (exec (.seImm 0x1#4 0x05#8) { with1 0x1#4 0x05#8 with pc := 0x302#16 }) (fun t => t.pc == 0x304#16) ∧
    nextWith (exec (.seImm 0x1#4 0x05#8) { with1 0x1#4 0x06#8 with pc := 0x302#16 }) (fun t => t.pc == 0x302#16) := by
  decide

/-- V-C10, V-C11. -/
theorem test_sneImm :
    nextWith (exec (.sneImm 0x1#4 0x05#8) { with1 0x1#4 0x05#8 with pc := 0x302#16 }) (fun t => t.pc == 0x302#16) ∧
    nextWith (exec (.sneImm 0x1#4 0x05#8) { with1 0x1#4 0x06#8 with pc := 0x302#16 }) (fun t => t.pc == 0x304#16) := by
  decide

/-- V-C12. -/
theorem test_seReg :
    nextWith (exec (.seReg 0x1#4 0x2#4) { with2 0x1#4 0x07#8 0x2#4 0x07#8 with pc := 0x302#16 })
      (fun t => t.pc == 0x304#16) = true := by decide

/-- V-C13, both parts. -/
theorem test_sneReg :
    nextWith (exec (.sneReg 0x1#4 0x2#4) { with2 0x1#4 0x07#8 0x2#4 0x08#8 with pc := 0x302#16 })
      (fun t => t.pc == 0x304#16) ∧
    nextWith (exec (.sneReg 0x1#4 0x2#4) { with2 0x1#4 0x07#8 0x2#4 0x07#8 with pc := 0x302#16 })
      (fun t => t.pc == 0x302#16) := by decide

/-- V-C15: wraps at 4096. -/
theorem test_jmpV0 : nextWith (exec (.jmpV0 0xFFF#12) (with1 0x0#4 0x02#8)) (fun t => t.pc == 0x001#16) = true := by decide

/-- V-A1. -/
theorem test_ldImm : nextWith (exec (.ldImm 0xA#4 0xFF#8) ready) (fun t => t.getV 0xA#4 == 0xFF#8) = true := by decide

/-- V-A3: the sum, not a flag. -/
theorem test_addImm :
    nextWith (exec (.addImm 0xF#4 0x01#8) (with1 0xF#4 0xFF#8)) (fun t => t.getV 0xF#4 == 0x00#8) = true := by decide

/-- V-A4. -/
theorem test_ldReg :
    nextWith (exec (.ldReg 0x2#4 0xF#4) (with1 0xF#4 0x01#8)) (fun t => t.getV 0x2#4 == 0x01#8) = true := by decide

/-- V-A5: VF is not written. -/
theorem test_orReg :
    nextWith (exec (.orReg 0x0#4 0x1#4) ((with2 0x0#4 0xF0#8 0x1#4 0x0F#8).setV 0xF#4 0x77#8))
      (fun t => t.getV 0x0#4 == 0xFF#8 && t.getV 0xF#4 == 0x77#8) = true := by decide

/-- V-A6. -/
theorem test_andReg :
    nextWith (exec (.andReg 0x0#4 0x1#4) (with2 0x0#4 0xF0#8 0x1#4 0x3C#8)) (fun t => t.getV 0x0#4 == 0x30#8) = true := by
  decide

/-- V-A7. -/
theorem test_xorReg :
    nextWith (exec (.xorReg 0x0#4 0x1#4) (with2 0x0#4 0xF0#8 0x1#4 0x3C#8)) (fun t => t.getV 0x0#4 == 0xCC#8) = true := by
  decide

/-- V-A9: X = Y doubles. -/
theorem test_addReg :
    nextWith (exec (.addReg 0x0#4 0x0#4) (with1 0x0#4 0x80#8))
      (fun t => t.getV 0x0#4 == 0x00#8 && t.getV 0xF#4 == 0x01#8) = true := by decide

/-- V-A10: with X = F the sum overwrites the carry. -/
theorem test_addReg_flag_operand :
    nextWith (exec (.addReg 0xF#4 0x1#4) (with2 0xF#4 0xFF#8 0x1#4 0x01#8)) (fun t => t.getV 0xF#4 == 0x00#8) = true := by
  decide

/-- V-A13: strict comparison. -/
theorem test_subReg_equal :
    nextWith (exec (.subReg 0x0#4 0x1#4) (with2 0x0#4 0x05#8 0x1#4 0x05#8))
      (fun t => t.getV 0x0#4 == 0x00#8 && t.getV 0xF#4 == 0x00#8) = true := by decide

/-- V-A14 and V-A15: the corners X = F and Y = F. -/
theorem test_subReg_flag_operand :
    nextWith (exec (.subReg 0xF#4 0x1#4) (with2 0xF#4 0x10#8 0x1#4 0x03#8)) (fun t => t.getV 0xF#4 == 0xFE#8) ∧
    nextWith (exec (.subReg 0x1#4 0xF#4) (with2 0x1#4 0x10#8 0xF#4 0x03#8))
      (fun t => t.getV 0x1#4 == 0x0F#8 && t.getV 0xF#4 == 0x01#8) := by decide

/-- V-A18: Vy is not read. -/
theorem test_shr :
    nextWith (exec (.shr 0x1#4 0x2#4) (with2 0x1#4 0x01#8 0x2#4 0xFF#8))
      (fun t => t.getV 0x1#4 == 0x00#8 && t.getV 0xF#4 == 0x01#8) = true := by decide

/-- V-A19. -/
theorem test_shr_flag_operand :
    nextWith (exec (.shr 0xF#4 0x0#4) (with1 0xF#4 0xFF#8)) (fun t => t.getV 0xF#4 == 0x00#8) = true := by decide

/-- V-A20. -/
theorem test_subn :
    nextWith (exec (.subn 0x1#4 0x2#4) (with2 0x1#4 0x01#8 0x2#4 0xFF#8))
      (fun t => t.getV 0x1#4 == 0xFE#8 && t.getV 0xF#4 == 0x01#8) = true := by decide

/-- V-A23 and V-A24: the corners X = F and Y = F. -/
theorem test_subn_flag_operand :
    nextWith (exec (.subn 0xF#4 0x1#4) (with2 0xF#4 0x10#8 0x1#4 0x03#8)) (fun t => t.getV 0xF#4 == 0x03#8) ∧
    nextWith (exec (.subn 0x1#4 0xF#4) (with2 0x1#4 0x03#8 0xF#4 0x10#8))
      (fun t => t.getV 0x1#4 == 0xFE#8 && t.getV 0xF#4 == 0x01#8) := by decide

/-- V-A25. -/
theorem test_shl :
    nextWith (exec (.shl 0x1#4 0x0#4) (with1 0x1#4 0x81#8))
      (fun t => t.getV 0x1#4 == 0x02#8 && t.getV 0xF#4 == 0x01#8) = true := by decide

/-- V-A27. -/
theorem test_shl_flag_operand :
    nextWith (exec (.shl 0xF#4 0xF#4) (with1 0xF#4 0x80#8)) (fun t => t.getV 0xF#4 == 0x02#8) = true := by decide

/-- V-A29. -/
theorem test_rnd :
    nextWith (exec (.rnd 0x3#4 0x0F#8) { ready with rnd := 0x5A#8 }) (fun t => t.getV 0x3#4 == 0x0A#8) = true := by decide

/-- V-M1. -/
theorem test_ldI : nextWith (exec (.ldI 0x123#12) ready) (fun t => t.i == 0x123#16) = true := by decide

/-- V-M3: wraps at 4096, VF unchanged. -/
theorem test_addI :
    nextWith (exec (.addI 0x0#4) { with1 0x0#4 0x01#8 with i := 0xFFF#16 })
      (fun t => t.i == 0x000#16 && t.getV 0xF#4 == 0x00#8) = true := by decide

/-- V-M5, both values of `FONT_INDEX`. -/
theorem test_ldF :
    nextWith (exec (.ldF 0x0#4) (with1 0x0#4 0x1A#8)) (fun t => t.i == 0x082#16) ∧
    nextWith (exec (.ldF 0x0#4) { with1 0x0#4 0x1A#8 with params := { ready.params with fontIndex := .lowNibble } })
      (fun t => t.i == 0x032#16) := by decide

/-- V-M4, the glyph under the default font. -/
theorem test_ldF_glyph : ready.memRead 0x032#12 = 0xF0#8 := by decide

/-- V-M9: wraps past 0xFFF, logged in order. -/
theorem test_ldB :
    nextWith (exec (.ldB 0x0#4) { with1 0x0#4 0x7B#8 with i := 0xFFE#16 })
      (fun t => t.log == [(0xFFE#12, 0x01#8), (0xFFF#12, 0x02#8), (0x000#12, 0x03#8)] && t.memRead 0x000#12 == 0x03#8) =
    true := by decide

/-- V-M10. -/
theorem test_ldMemVx :
    nextWith (exec (.ldMemVx 0x1#4) { with2 0x0#4 0x11#8 0x1#4 0x22#8 with i := 0xFFF#16 })
      (fun t => t.log == [(0xFFF#12, 0x11#8), (0x000#12, 0x22#8)] && t.memRead 0xFFF#12 == 0x11#8 && t.i == 0xFFF#16) =
    true := by decide

/-- V-M11. -/
theorem test_ldVxMem :
    nextWith (exec (.ldVxMem 0x2#4) { put (put (put ready 0x300 0x02#8) 0x301 0x05#8) 0x302 0x04#8 with i := 0x300#16 })
      (fun t => t.getV 0x0#4 == 0x02#8 && t.getV 0x1#4 == 0x05#8 && t.getV 0x2#4 == 0x04#8 && t.i == 0x300#16) = true := by
  decide

/-- V-D4: wraps on both axes. -/
theorem test_drw_wraps :
    nextWith (exec (.drw 0x0#4 0x1#4 0x1#4)
        { put (with2 0x0#4 0x3C#8 0x1#4 0x28#8) 0x400 0xFF#8 with i := 0x400#16 })
      (fun t => Screen.get t.pix 60 8 && Screen.get t.pix 63 8 && Screen.get t.pix 0 8 && Screen.get t.pix 3 8 &&
        !Screen.get t.pix 4 8 && !Screen.get t.pix 59 8 && t.getV 0xF#4 == 0x00#8) = true := by decide

/-- V-D5 with the position of V-D6: bit 7 leftmost, the position read from VF before the flag is written. -/
theorem test_drw_flag :
    nextWith (exec (.drw 0xF#4 0xF#4 0x1#4)
        ({ put (with1 0xF#4 0x03#8) 0x400 0xC0#8 with i := 0x400#16 }.setPix (Screen.flip Screen.blank 4 3)))
      (fun t => Screen.get t.pix 3 3 && !Screen.get t.pix 4 3 && t.getV 0xF#4 == 0x01#8) = true := by decide

/-- V-K1, V-K2. -/
theorem test_skp :
    nextWith (exec (.skp 0x5#4) { with1 0x5#4 0x0A#8 with pc := 0x302#16, key := oneKey 0xA }) (fun t => t.pc == 0x304#16) ∧
    nextWith (exec (.skp 0x5#4) { with1 0x5#4 0x0A#8 with pc := 0x302#16 }) (fun t => t.pc == 0x302#16) := by decide

/-- V-K3, V-K6. -/
theorem test_sknp :
    nextWith (exec (.sknp 0x5#4) { with1 0x5#4 0x0A#8 with pc := 0x302#16 }) (fun t => t.pc == 0x304#16) ∧
    nextWith (exec (.sknp 0x5#4) { with1 0x5#4 0x10#8 with pc := 0x302#16, opcode := 0xE5A1#16 })
      (fun t => t.pc == 0x302#16 &&
        t.outputs == [.diagnostic (.keyRange 0x300#16 0xE5A1#16 0x10#8)]) := by decide

/-- V-K7, V-K8, as instructions: the last key of the refresh is taken, or PC moves back. -/
theorem test_ldVxK :
    nextWith (exec (.ldVxK 0x0#4) { ready with pc := 0x302#16 }) (fun t => t.pc == 0x300#16) ∧
    nextWith (exec (.ldVxK 0x3#4) { ready with pc := 0x302#16, lastKey := some 7 })
      (fun t => t.getV 0x3#4 == 0x07#8 && t.pc == 0x302#16) := by decide

/-- V-T1. -/
theorem test_ldVxDt :
    nextWith (exec (.ldVxDt 0x1#4) { ready with dt := 0x05#8 }) (fun t => t.getV 0x1#4 == 0x05#8) = true := by decide

/-- V-T2. -/
theorem test_ldDt : nextWith (exec (.ldDt 0x0#4) (with1 0x0#4 0x07#8)) (fun t => t.dt == 0x07#8) = true := by decide

/-- V-T3. -/
theorem test_ldSt : nextWith (exec (.ldSt 0x3#4) (with1 0x3#4 0x3C#8)) (fun t => t.st == 0x3C#8) = true := by decide

/-! ### Cycles and the host's operations -/

/-- V-H1: not ready, so nothing happens. -/
theorem test_cycle_not_ready :
    nextWith (State.reset.cycle (oneKey 3) 0x55#8) (fun t => t.key == noKeys && t.outputs == [] && t.pc == 0x200#16) =
    true := by decide

/-- V-E1, and the example of R112. -/
theorem test_cycle_unrecognized :
    nextWith ((atWord ready 0x300 0x8AB9#16).cycle noKeys 0x00#8)
      (fun t => t.pc == 0x302#16 &&
        t.outputs == [.diagnostic (.unrecognized 0x300#16 0x8AB9#16), .cycleComplete]) = true := by decide

/-- V-H2: zeroed memory runs as CLS. -/
theorem test_cycle_zero_word :
    nextWith (ready.cycle noKeys 0x00#8) (fun t => t.pc == 0x202#16 && t.outputs == [.cycleComplete]) = true := by decide

/-- V-H5: the last word of memory is fetched. -/
theorem test_cycle_last_word :
    nextWith ((atWord ready 0xFFE 0x1200#16).cycle noKeys 0x00#8) (fun t => t.pc == 0x200#16) = true := by decide

/-- V-H3: at 0xFFF the fetch fails, PC and OPCODE unchanged, CycleComplete put out. -/
theorem test_cycle_fetch_range :
    (match State.cycle { ready with pc := 0xFFF#16 } (oneKey 3) 0x00#8 with
      | .fault (.fetchRange left) => left.pc == 0xFFF#16 && left.opcode == 0x0000#16 && left.key == oneKey 3 &&
          left.outputs == [.diagnostic (.fetchRange 0xFFF#16), .cycleComplete]
      | _ => false) = true := by decide

/-- V-K9, V-K10, V-K11: held keys under `Level`, newly pressed ones under `Edge`. -/
theorem test_last_key :
    lowestKey .level (oneKey 3) (oneKey 3) = some 3 ∧ lowestKey .edge (oneKey 3) (oneKey 3) = none ∧
    lowestKey .edge (oneKey 3) (twoKeys 3 5) = some 5 ∧ lowestKey .level noKeys (twoKeys 7 10) = some 7 := by decide

/-- V-H6, V-H7. -/
theorem test_ticks :
    (State.tickDelayTimer { ready with dt := 0x01#8 }).dt = 0x00#8 ∧ ready.tickDelayTimer.dt = 0x00#8 ∧
    (State.tickSoundTimer { ready with st := 0x3C#8 }).st = 0x3B#8 := by decide

/-- V-H8. -/
theorem test_drain :
    State.drainChanges { ready with log := [(0x300#12, 0x02#8)] } =
      { ready with outputs := [.drained [(0x300#12, 0x02#8)]] } := by decide

/-- V-H10 and the loading of two bytes: unlogged, at 0x200. -/
theorem test_load_rom :
    (State.reset.loadRom [] "n").life = .ready ∧ (State.reset.loadRom [0x12#8, 0x34#8] "n").memRead 0x201#12 = 0x34#8 ∧
    (State.reset.loadRom [0x12#8, 0x34#8] "n").log = [] := by decide

/-- V-H9, on the length the check reads. -/
theorem test_load_rom_too_large : romMax = 3584 := by decide

/-- The codes of R241. -/
theorem test_codes :
    Diagnostic.code (.unrecognized 0#16 0#16) = 1 ∧ Diagnostic.code (.stackOverflow 0#16 0#16) = 2 ∧
    Diagnostic.code (.stackUnderflow 0#16 0#16) = 3 ∧ Diagnostic.code (.keyRange 0#16 0#16 0#8) = 4 ∧
    Diagnostic.code (.fetchRange 0#16) = 5 ∧ LoadResult.code (.romTooLarge 3585) = some 6 := by decide

/-- The very next step runs a placed word. -/
theorem test_withFetchWord :
    nextWith (step (State.reset.withFetchWord 16 0x6AFF)) (fun t => t.getV 0xA#4 == 0xFF#8 && t.opcode == 0x6AFF#16) = true ∧
    nextWith (step (State.reset.withFetchWord 16 0xF00A)) (fun _ => true) = true := by decide

/-! ### Witnesses: states and operands that meet a statement's hypotheses, at the boundaries of its clauses -/

/-- DecodeInvertsEncode. -/
theorem test_witness_DecodeInvertsEncode : WellFormed (.drw 0xF#4 0x0#4 0xF#4) = true := by decide

/-- EncodeInvertsDecodeOnCanonicalWords: keys 0x0, 0x5 and 0x9, and a key whose words are all canonical. -/
theorem test_witness_EncodeInvertsDecodeOnCanonicalWords :
    (canonicalWord 0x00EE#16 = true ∧ decode 0x00EE#16 = .ok .ret) ∧
    (canonicalWord 0x5FF0#16 = true ∧ decode 0x5FF0#16 = .ok (.seReg 0xF#4 0xF#4)) ∧
    (canonicalWord 0x9000#16 = true ∧ decode 0x9000#16 = .ok (.sneReg 0x0#4 0x0#4)) ∧
    (canonicalWord 0xFF65#16 = true ∧ decode 0xFF65#16 = .ok (.ldVxMem 0xF#4)) := by decide

/-- OpcodeMapDecodes: a row and a word it selects (each row's word: test_decode_...); a word no row selects. -/
theorem test_witness_OpcodeMapDecodes :
    (∀ row ∈ opcodeMap, row.mat &&& row.mask = row.mat) ∧
    (∀ row ∈ opcodeMap, 0x8AB9#16 &&& row.mask ≠ row.mat) ∧ (∀ row ∈ opcodeMap, 0x0001#16 &&& row.mask ≠ row.mat) := by
  decide

/-- SubDispatchRecognizesItsList: each key, with a listed and an unlisted sub-operation. -/
theorem test_witness_SubDispatchRecognizesItsList :
    (fieldK 0x800E#16 = 0x8#4 ∧ fieldK 0x800F#16 = 0x8#4 ∧ fieldN 0x800F#16 = 0xF#4) ∧
    (fieldK 0xE0A1#16 = 0xE#4 ∧ fieldK 0xE09F#16 = 0xE#4 ∧ fieldNN 0xE09F#16 = 0x9F#8) ∧
    (fieldK 0xF007#16 = 0xF#4 ∧ fieldK 0xF066#16 = 0xF#4 ∧ fieldNN 0xF066#16 = 0x66#8) := by decide

/-- A ready block with a cycle scheduled, the word `w` at PC. -/
def scheduled (w : Word) : State := { atWord ready 0x300 w with pending := [.cycle (oneKey 3) 0x5A#8, .tickDelayTimer] }

/-- StepRunsTheDecodedInstruction: a scheduled cycle and an empty schedule, each with an instruction and with a word that
is none. -/
theorem test_witness_StepRunsTheDecodedInstruction :
    ((scheduled 0x8AB4#16).life = .ready ∧ (scheduled 0x8AB4#16).fetchable ∧
      (scheduled 0x8AB4#16).pending = [.cycle (oneKey 3) 0x5A#8, .tickDelayTimer] ∧
      decode (scheduled 0x8AB4#16).fetchWord = .ok (.addReg 0xA#4 0xB#4)) ∧
    ((scheduled 0x8AB9#16).life = .ready ∧ (scheduled 0x8AB9#16).fetchable ∧
      (scheduled 0x8AB9#16).pending = [.cycle (oneKey 3) 0x5A#8, .tickDelayTimer] ∧
      decode (scheduled 0x8AB9#16).fetchWord = .error (.unrecognized 0x8AB9#16)) ∧
    ((atWord ready 0xFFE 0x1200#16).life = .ready ∧ (atWord ready 0xFFE 0x1200#16).fetchable ∧
      (atWord ready 0xFFE 0x1200#16).pending = [] ∧
      decode (atWord ready 0xFFE 0x1200#16).fetchWord = .ok (.jmp 0x200#12)) ∧
    ((atWord ready 0x300 0x0123#16).life = .ready ∧ (atWord ready 0x300 0x0123#16).fetchable ∧
      (atWord ready 0x300 0x0123#16).pending = [] ∧
      decode (atWord ready 0x300 0x0123#16).fetchWord = .error (.unrecognized 0x0123#16)) := by decide

/-- CycleIsANoOpUnlessReady: both other values of LIFE. -/
theorem test_witness_CycleIsANoOpUnlessReady :
    State.reset.life ≠ .ready ∧ State.life { ready with life := .uninitialized } ≠ .ready := by decide

/-- FetchIsBigEndianAndAdvances: PC at both ends of its range; the example of R58. -/
theorem test_witness_FetchIsBigEndianAndAdvances :
    State.fetchable { ready with pc := 0x000#16 } ∧ State.fetchable { ready with pc := 0xFFE#16 } ∧
    ((atWord ready 0x200 0x1AAA#16).fetchable ∧ (atWord ready 0x200 0x1AAA#16).pc = 0x200#16 ∧
      (atWord ready 0x200 0x1AAA#16).memRead 0x200#12 = 0x1A#8 ∧
      (atWord ready 0x200 0x1AAA#16).memRead 0x201#12 = 0xAA#8) := by decide

/-- A ready block whose cycle answers a next state: the premise of FetchIsBigEndianAndAdvances,
KeypadHoldsTheCyclesSample, LastKeyIsTheLowestThatQualifies, OneCompletionAtMostOneDiagnostic,
TimersMoveOnlyByTicksAndSetters and ChangeLogReplaysMemory (here with a store to memory, and DT and ST not zero). -/
theorem test_witness_cycle_next :
    State.life { atWord ready 0x300 0xF055#16 with dt := 0x05#8, st := 0x06#8 } = .ready ∧
    ∃ t, State.cycle { atWord ready 0x300 0xF055#16 with dt := 0x05#8, st := 0x06#8 } (twoKeys 3 5) 0x00#8 = .next t ∧
      (t.log.length == 1 && t.lastKey == some 3) = true :=
  ⟨by decide, exists_of_nextWith (by decide)⟩

/-- TimersMoveOnlyByTicksAndSetters: the word of that cycle sets no timer; a state that may be ticked. -/
theorem test_witness_TimersMoveOnlyByTicksAndSetters :
    decode (atWord ready 0x300 0xF055#16).fetchWord = .ok (.ldMemVx 0x0#4) ∧
    (∀ x, Instr.ldMemVx 0x0#4 ≠ .ldDt x) ∧ (∀ x, Instr.ldMemVx 0x0#4 ≠ .ldSt x) ∧ ready.life ≠ .uninitialized := by decide

/-- LastKeyIsTheLowestThatQualifies: a cycle under `Edge` that ends with no last key. -/
theorem test_witness_LastKeyIsTheLowestThatQualifies :
    ∃ t, State.cycle { ready with params := { ready.params with keywaitMode := .edge }, key := oneKey 3 } (oneKey 3) 0x00#8 =
      .next t ∧ (t.lastKey == none) = true := exists_of_nextWith (by decide)

/-- CycleCompletesWhenFetchable and FetchRangeDefect: PC on both sides of the bound. -/
theorem test_witness_FetchRangeDefect :
    (State.life { ready with pc := 0xFFE#16 } = .ready ∧ State.fetchable { ready with pc := 0xFFE#16 }) ∧
    (State.life { ready with pc := 0xFFF#16 } = .ready ∧ ¬ State.fetchable { ready with pc := 0xFFF#16 }) ∧
    (State.life { ready with pc := 0xFFFF#16 } = .ready ∧ ¬ State.fetchable { ready with pc := 0xFFFF#16 }) := by decide

/-- UnrecognizedWordIsANoOpWithADiagnostic. -/
theorem test_witness_UnrecognizedWordIsANoOpWithADiagnostic :
    (atWord ready 0x300 0x8AB9#16).life = .ready ∧ (atWord ready 0x300 0x8AB9#16).fetchable ∧
    decode (atWord ready 0x300 0x8AB9#16).fetchWord = .error (.unrecognized 0x8AB9#16) := by decide

/-- DiagnosticsArePrecise: a cycle that puts out a diagnostic. -/
theorem test_witness_DiagnosticsArePrecise :
    (atWord ready 0x300 0x00EE#16).life = .ready ∧
    ∃ t, (atWord ready 0x300 0x00EE#16).cycle noKeys 0x00#8 = .next t ∧
      (t.outputs == [.diagnostic (.stackUnderflow 0x300#16 0x00EE#16), .cycleComplete]) = true :=
  ⟨by decide, exists_of_nextWith (by decide)⟩

/-- HaltIdiomStaysHalted: P1's halt, 120C at 0x20C. -/
theorem test_witness_HaltIdiomStaysHalted : (atWord ready 0x20C 0x120C#16).halted :=
  ⟨by decide, by decide, 0x20C#12, by decide, by decide⟩

/-- ReturnFromSubroutine and CallSubroutine: SP at both ends of each clause. -/
theorem test_witness_stack_clauses :
    (State.sp { ready with sp := 1 }).val = (0 : Fin 16).val + 1 ∧
    (State.sp { ready with sp := 16 }).val = (15 : Fin 16).val + 1 ∧ ready.sp.val = 0 ∧
    ready.sp.val = (0 : Fin 16).val ∧ (State.sp { ready with sp := 15 }).val = (15 : Fin 16).val ∧
    (State.sp { ready with sp := 16 }).val = 16 := by decide

/-- ReturnUndoesCall: depth 15, and a state reached later with the stack as the CALL left it. -/
theorem test_witness_ReturnUndoesCall :
    (State.sp { ready with sp := 15 }).val < 16 ∧
    ∃ t, exec (.call 0x300#12) { ready with sp := 15 } = .next t ∧
      (State.stack { t with dt := 0x09#8 } == t.stack && State.sp { t with dt := 0x09#8 } == t.sp) = true :=
  ⟨by decide, exists_of_nextWith (by decide)⟩

/-- JumpSetsPc and IndexedJump: a target of 0xFFF. -/
theorem test_witness_jump_to_last_byte :
    (0xFFF#12 : Addr) = 0xFFF#12 ∧
    ∃ t, exec (.jmpV0 0xFFF#12) ready = .next t ∧ (t.pc == 0xFFF#16) = true :=
  ⟨by decide, exists_of_nextWith (by decide)⟩

/-- AddWithCarry, SubtractWithFlag, ReverseSubtractWithFlag, ShiftRight, ShiftLeft: register numbers for each clause. -/
theorem test_witness_flag_corners :
    ((0xE#4 : Nibble) ≠ 0xF#4 ∧ (0x0#4 : Nibble) ≠ 0xF#4) ∧ ((0x0#4 : Nibble) ≠ 0xF#4 ∧ (0xF#4 : Nibble) = 0xF#4) ∧
    ((0xF#4 : Nibble) = 0xF#4 ∧ (0xE#4 : Nibble) ≠ 0xF#4) ∧ ((0xF#4 : Nibble) = 0xF#4 ∧ (0xF#4 : Nibble) = 0xF#4) := by
  decide

/-- RandomIsTheMaskedInput: an instruction that is no RND. -/
theorem test_witness_RandomIsTheMaskedInput : ∀ x nn, Instr.drw 0x0#4 0x1#4 0xF#4 ≠ .rnd x nn := by
  intro x nn h; cases h

/-- FontAddressOfDigit: both values of `FONT_INDEX`; the digits 0 and F. -/
theorem test_witness_FontAddressOfDigit :
    ready.params.fontIndex = .full ∧
    (State.params { ready with params := { ready.params with fontIndex := .lowNibble } }).fontIndex = .lowNibble ∧
    (ready.getV 0x0#4).toNat = (0 : Fin 16).val ∧ ((with1 0x0#4 0x0F#8).getV 0x0#4).toNat = (15 : Fin 16).val := by decide

/-- StoreRegisters and LoadRegisters: register numbers up to X, X at both ends. -/
theorem test_witness_register_ranges :
    (0x0#4 : Nibble).toNat ≤ (0x0#4 : Nibble).toNat ∧ (0xF#4 : Nibble).toNat ≤ (0xF#4 : Nibble).toNat ∧
    (0x0#4 : Nibble).toNat ≤ (0xF#4 : Nibble).toNat := by decide

/-- LoadAfterStoreRestoresRegisters: after FF55, V0 is overwritten; I and the stored bytes are as the store left them. -/
theorem test_witness_LoadAfterStoreRestoresRegisters :
    ∃ t, exec (.ldMemVx 0xF#4) { with1 0x3#4 0x33#8 with i := 0xFF8#16 } = .next t ∧
      ((t.setV 0x3#4 0x00#8).i == t.i && (List.range 16).all (fun r =>
        (t.setV 0x3#4 0x00#8).memRead ((t.setV 0x3#4 0x00#8).dataAddr r) ==
          t.memRead ((t.setV 0x3#4 0x00#8).dataAddr r))) = true := exists_of_nextWith (by decide)

/-- DrawSpriteFlipsItsPixels: a pixel under a set sprite bit, across both edges. -/
theorem test_witness_DrawSpriteFlipsItsPixels :
    spriteBit { put ready 0x401 0x81#8 with i := 0x400#16 } 0x3E#8 0x1F#8 2 5 0 := ⟨by decide, by decide, by decide⟩

/-- RedrawRestoresTheDisplay: D011 twice from the same place, the flag between read as VF. -/
theorem test_witness_RedrawRestoresTheDisplay :
    ∃ t, exec (.drw 0x0#4 0x1#4 0x1#4) { put ready 0x400 0x80#8 with i := 0x400#16 } = .next t ∧
      (t.i == 0x400#16 && t.mem == (put ready 0x400 0x80#8).mem && t.getV 0x0#4 == ready.getV 0x0#4 &&
        t.getV 0x1#4 == ready.getV 0x1#4 && nextWith (exec (.drw 0x0#4 0x1#4 0x1#4) t)
          (fun w => w.getV 0xF#4 == 0x01#8 && !Screen.get w.pix 0 0)) = true := exists_of_nextWith (by decide)

/-- SkipOnKeyState: the key numbers 0 and F, and the first number out of range. -/
theorem test_witness_SkipOnKeyState :
    (ready.getV 0x5#4).toNat = (0 : Fin 16).val ∧ ((with1 0x5#4 0x0F#8).getV 0x5#4).toNat = (15 : Fin 16).val ∧
    ((with1 0x5#4 0x10#8).getV 0x5#4).toNat > 0xF := by decide

/-- WaitForKey: a last key, and none. -/
theorem test_witness_WaitForKey :
    State.lastKey { ready with lastKey := some 15 } = some 15 ∧ ready.lastKey = none := by decide

/-- DelayTimerRegister: a register that holds 0. -/
theorem test_witness_DelayTimerRegister : ready.getV 0x0#4 = 0x00#8 := by decide

/-- RegistersWrittenOnlyAsNamed: an instruction that writes V1 and VF, and V2. -/
theorem test_witness_RegistersWrittenOnlyAsNamed :
    ¬ writesV (.addReg 0x1#4 0x2#4) 0x2#4 ∧ ∃ t, exec (.addReg 0x1#4 0x2#4) ready = .next t ∧ true = true :=
  ⟨by unfold writesV; decide, exists_of_nextWith (by decide)⟩

/-- IndexStaysTwelveBits: an instruction that does not write I, and one that changes it. -/
theorem test_witness_IndexStaysTwelveBits :
    ((∀ nnn, Instr.cls ≠ .ldI nnn) ∧ (∀ x, Instr.cls ≠ .addI x) ∧ (∀ x, Instr.cls ≠ .ldF x) ∧
      ∃ t, exec .cls ready = .next t ∧ true = true) ∧
    ∃ t, exec (.ldI 0x123#12) ready = .next t ∧ (t.i != ready.i) = true :=
  ⟨⟨fun _ => nofun, fun _ => nofun, fun _ => nofun, exists_of_nextWith (by decide)⟩, exists_of_nextWith (by decide)⟩

/-- OnlyTheNamedInstructionsWrite: an instruction that none of its clauses names. -/
theorem test_witness_OnlyTheNamedInstructionsWrite :
    (∀ nnn, Instr.skp 0x0#4 ≠ .call nnn) ∧ Instr.skp 0x0#4 ≠ .ret ∧ (∀ x, Instr.skp 0x0#4 ≠ .ldB x) ∧
    (∀ x, Instr.skp 0x0#4 ≠ .ldMemVx x) ∧ Instr.skp 0x0#4 ≠ .cls ∧ (∀ x y n, Instr.skp 0x0#4 ≠ .drw x y n) ∧
    ∃ t, exec (.skp 0x0#4) ready = .next t ∧ true = true :=
  ⟨fun _ => nofun, nofun, fun _ => nofun, fun _ => nofun, nofun, fun _ _ _ => nofun, exists_of_nextWith (by decide)⟩

/-- DrainHandsOutAndClears and AccessorsOnlyRead: both values of LIFE; an accessor of each kind. -/
theorem test_witness_AccessorsOnlyRead :
    State.reset.life ≠ .uninitialized ∧ ready.life ≠ .uninitialized ∧
    Accessor.registers = .registers ∧ Accessor.addressRegister = .addressRegister ∧
    Accessor.programCounter = .programCounter ∧ Accessor.stackPointer = .stackPointer ∧ Accessor.stack = .stack ∧
    Accessor.delayTimer = .delayTimer ∧ Accessor.soundTimer = .soundTimer ∧ Accessor.displayBuffer = .displayBuffer ∧
    Accessor.memory 0xFFF#12 = .memory 0xFFF#12 := by decide

/-- LoadRomOrRomTooLarge: ROMs of 0, 3584 and 3585 bytes; addresses outside a ROM of two bytes. -/
theorem test_witness_LoadRomOrRomTooLarge :
    ([] : List Byte).length ≤ 3584 ∧ (List.replicate 3584 0x12#8).length ≤ 3584 ∧
    3584 < (List.replicate 3585 0x12#8).length ∧ 1 < ([0x12#8, 0x34#8] : List Byte).length ∧
    (0x1FF#12 : Addr).toNat < 0x200 ∧ 0x200 + ([0x12#8, 0x34#8] : List Byte).length ≤ (0x202#12 : Addr).toNat :=
  ⟨by decide, by rw [List.length_replicate], by rw [List.length_replicate]; decide, by decide, by decide, by decide⟩

/-- InitialiseGivesTheResetValues: the first and the last address above the font. -/
theorem test_witness_InitialiseGivesTheResetValues :
    0x050 ≤ (0x050#12 : Addr).toNat ∧ 0x050 ≤ (0xFFF#12 : Addr).toNat := by decide

/-- BeforeInitialise. -/
theorem test_witness_BeforeInitialise : State.life { ready with life := .uninitialized } = .uninitialized := by decide

/-- StepKeepsTheInvariant: a state with memory, I, PC and the stack at the ends of their ranges, one step from which
answers a next state. -/
theorem test_witness_StepKeepsTheInvariant :
    State.Inv { atWord ready 0xFFE 0x3000#16 with
      i := 0xFFF#16, stack := ready.stack.set 15 0x1000#16, key := oneKey 3, lastKey := some 3, dt := 0xFF#8,
      pending := [.cycle (oneKey 3) 0x00#8] } ∧
    ∃ t, step { atWord ready 0xFFE 0x3000#16 with
      i := 0xFFF#16, stack := ready.stack.set 15 0x1000#16, key := oneKey 3, lastKey := some 3, dt := 0xFF#8,
      pending := [.cycle (oneKey 3) 0x00#8] } = .next t ∧ (t.pc == 0x1002#16) = true :=
  ⟨by decide, exists_of_nextWith (by decide)⟩

/-- PlacesAreTheWholeState: a state with something listed in memory, and itself. -/
theorem test_witness_PlacesAreTheWholeState :
    Memory.wf (resetByte (put ready 0x300 0x12#8).params) (put ready 0x300 0x12#8).mem ∧
    Frame (fun _ => False) (put ready 0x300 0x12#8) (put ready 0x300 0x12#8) :=
  ⟨by decide, fun l _ => by cases l <;> rfl⟩

end Sys2Proof.Tests
end

/-! PROOFS. Who writes what (10_state), and the invariant every step keeps: the frame of each instruction, what
instructions do to I, PC, the stack and the memory list, the operations of the host, and then the obligations. -/

namespace Sys2Proof.Machine
open Sys2Proof.Claims

/-! ### The frame of each instruction (10_state R23, R24, R29, R35, R36, R39, R40; 20_memory R57; 44_display R200) -/

section
variable {s t : State} {w : Loc → Prop} {l l' : Loc}

theorem Frame.of_single (h : Frame (· = l) s t) (hl : w l) : Frame w s t := h.mono fun _ e => e ▸ hl

theorem Frame.of_pair (h : Frame (fun m => m = l ∨ m = l') s t) (hl : w l) (hl' : w l') : Frame w s t :=
  h.mono fun _ e => e.elim (· ▸ hl) (· ▸ hl')

theorem Frame.v_eq (h : Frame w s t) (hw : ∀ r, ¬ w (.v r)) : t.v = s.v := State.v_ext fun r => h (.v r) (hw r)

/-- Canonical memories are fixed by their bytes (log entry 24). -/
theorem Frame.mem_eq (h : Frame w s t) (hw : ∀ a, ¬ w (.byte a)) (hparams : t.params = s.params)
    (hs : Memory.wf (resetByte s.params) s.mem) (ht : Memory.wf (resetByte t.params) t.mem) : t.mem = s.mem := by
  refine Memory.eq_of_reads (hparams ▸ ht) hs fun a ha => ?_
  have hbyte : t.memRead (BitVec.ofNat 12 a) = s.memRead (BitVec.ofNat 12 a) := h (.byte _) (hw _)
  simpa [State.memRead, hparams, Nat.mod_eq_of_lt ha] using hbyte

theorem Frame.stack_eq (h : Frame w s t) (hw : ∀ k, ¬ w (.stack k)) : t.stack = s.stack :=
  Vector.ext fun k hk => h (.stack ⟨k, hk⟩) (hw _)

theorem Frame.pix_eq (h : Frame w s t) (hw : ∀ x y, ¬ w (.pixel x y)) : t.pix = s.pix :=
  Screen.ext fun x y => h (.pixel x y) (hw x y)

theorem Frame.key_eq (h : Frame w s t) (hw : ∀ k, ¬ w (.key k)) : t.key = s.key :=
  Vector.ext fun k hk => h (.key ⟨k, hk⟩) (hw _)

end

/-- The flag forms of the ALU write VF and then their own register (R150). -/
theorem frame_setFlag_setV (s : State) (c : Bool) (x : Nibble) (b : Byte) :
    Frame (fun l => l = .v x ∨ l = .v 0xF#4) s ((s.setFlag c).setV x b) :=
  ((frame_setFlag s c).of_single (.inr rfl)).trans ((frame_setV _ x b).of_single (.inl rfl))

/-- What a key test can do: a skip or not, or a diagnostic (R215, R216, R218). -/
theorem State.skipOnKey_cases (s : State) (k : Byte) (want : Bool) :
    (∃ c, s.skipOnKey k want = s.skipIf c) ∨ ∃ d, s.skipOnKey k want = s.raise d := by
  unfold State.skipOnKey
  split
  · exact .inl ⟨_, rfl⟩
  · exact .inr ⟨_, rfl⟩

theorem frame_skipOnKey (s : State) (k : Byte) (want : Bool) :
    Frame (fun l => l = .pc ∨ l = .outputs) s (s.skipOnKey k want) := by
  obtain ⟨c, e⟩ | ⟨d, e⟩ := s.skipOnKey_cases k want <;> rw [e]
  · exact (frame_skipIf s c).of_single (.inl rfl)
  · exact (frame_raise s d).of_single (.inr rfl)

/-- The instructions that can move PC beyond the fetch's advance (R28). -/
def writesPc : Instr → Prop
  | .ret | .jmp _ | .call _ | .seImm _ _ | .sneImm _ _ | .seReg _ _ | .sneReg _ _ | .jmpV0 _ => True
  | .skp _ | .sknp _ | .ldVxK _ => True
  | _ => False

/-- The instructions that can raise a diagnostic (R131, R133, R218). -/
def canRaise : Instr → Prop
  | .ret | .call _ | .skp _ | .sknp _ => True
  | _ => False

/-- Which instructions write a place, place by place. -/
def mayWrite (i : Instr) : Loc → Prop
  | .v r => writesV i r
  | .i => (∃ nnn, i = .ldI nnn) ∨ (∃ x, i = .addI x) ∨ ∃ x, i = .ldF x
  | .pc => writesPc i
  | .stack _ => ∃ nnn, i = .call nnn
  | .sp => (∃ nnn, i = .call nnn) ∨ i = .ret
  | .byte _ | .log => (∃ x, i = .ldB x) ∨ ∃ x, i = .ldMemVx x
  | .pixel _ _ => i = .cls ∨ ∃ x y n, i = .drw x y n
  | .dt => ∃ x, i = .ldDt x
  | .st => ∃ x, i = .ldSt x
  | .outputs => canRaise i
  | .life | .key _ | .lastKey | .opcode | .rnd | .draws | .params | .pending => False

/-- Every instruction in every state answers a next state, and writes only the places named for it. -/
theorem exec_next_frame (i : Instr) (s : State) : ∃ t, exec i s = .next t ∧ Frame (mayWrite i) s t := by
  cases i with
  | ldImm x | addImm x | ldReg x | orReg x | andReg x | xorReg x | rnd x | ldVxDt x =>
    exact ⟨_, rfl, (frame_setV s x _).of_single rfl⟩
  | addReg x | subReg x | shr x | subn x | shl x =>
    exact ⟨_, rfl, (frame_setFlag_setV s _ x _).of_pair (.inl rfl) (.inr rfl)⟩
  | seImm | sneImm | seReg | sneReg => exact ⟨_, rfl, (frame_skipIf s _).of_single trivial⟩
  | skp | sknp => exact ⟨_, rfl, (frame_skipOnKey s _ _).of_pair trivial trivial⟩
  | jmp | jmpV0 => exact ⟨_, rfl, (frame_setPc s _).of_single trivial⟩
  | call nnn =>
    refine ⟨_, rfl, ?_⟩
    split
    · exact ((frame_push s s.pc _).of_pair ⟨nnn, rfl⟩ (.inl ⟨nnn, rfl⟩)).trans
        ((frame_setPc _ _).of_single trivial)
    · exact (frame_raise s _).of_single trivial
  | ret =>
    refine ⟨_, rfl, ?_⟩
    split
    · exact (frame_raise s _).of_single trivial
    · exact ((frame_setPc s _).of_single trivial).trans ((frame_pop _).of_single (.inr rfl))
  | ldVxK x =>
    refine ⟨_, rfl, ?_⟩
    split
    · exact (frame_rewind s).of_single trivial
    · exact (frame_setV s x _).of_single rfl
  | ldDt x => exact ⟨_, rfl, (frame_setDt s _).of_single ⟨x, rfl⟩⟩
  | ldSt x => exact ⟨_, rfl, (frame_setSt s _).of_single ⟨x, rfl⟩⟩
  | ldI nnn => exact ⟨_, rfl, (frame_setI s _).of_single (.inl ⟨nnn, rfl⟩)⟩
  | addI x => exact ⟨_, rfl, (frame_setI s _).of_single (.inr (.inl ⟨x, rfl⟩))⟩
  | ldF x => exact ⟨_, rfl, (frame_setI s _).of_single (.inr (.inr ⟨x, rfl⟩))⟩
  | ldB x =>
    have write (u : State) (a : Addr) (b : Byte) : Frame (mayWrite (.ldB x)) u (u.memWrite a b) :=
      (frame_memWrite u a b).of_pair (.inl ⟨x, rfl⟩) (.inl ⟨x, rfl⟩)
    exact ⟨_, rfl, ((write s _ _).trans (write _ _ _)).trans (write _ _ _)⟩
  | ldMemVx x =>
    refine ⟨_, rfl, (frame_storeRegs s _).mono ?_⟩
    rintro _ (⟨r, -, rfl⟩ | rfl) <;> exact .inr ⟨x, rfl⟩
  | ldVxMem x =>
    refine ⟨_, rfl, (frame_loadRegs s (by have := x.isLt; omega)).mono ?_⟩
    rintro _ ⟨r, hr, rfl⟩
    exact Nat.le_of_lt_succ hr
  | cls =>
    refine ⟨_, rfl, (frame_setPix s _).mono ?_⟩
    rintro _ ⟨_, _, rfl, -⟩
    exact .inl rfl
  | drw x y n =>
    refine ⟨_, rfl, ((frame_setPix s _).mono ?_).trans ((frame_setFlag _ _).of_single rfl)⟩
    rintro _ ⟨_, _, rfl, -⟩
    exact .inr ⟨x, y, n, rfl⟩

section
variable {i : Instr} {s t : State}

/-- What is shown of some next state holds of the next state. -/
theorem of_exists_next {P : State → Prop} {o : Host.Outcome State Fault Refusal} (h : o = .next t)
    (hP : ∃ u, o = .next u ∧ P u) : P t := by
  obtain ⟨u, hu, hP⟩ := hP
  cases h.symm.trans hu
  exact hP

theorem exec_frame (h : exec i s = .next t) : Frame (mayWrite i) s t := of_exists_next h (exec_next_frame i s)

end

/-! ### What an instruction does to I, PC, the stack and the memory list -/

section
variable {i : Instr} {s t : State}

/-- A write of I masks its value to twelve bits (R24). -/
theorem State.setI_toNat (s : State) (w : Word) : (s.setI w).i.toNat = w.toNat % 0x1000 :=
  (BitVec.toNat_and ..).trans (Nat.and_two_pow_sub_one_eq_mod w.toNat 12)

theorem State.setI_indexInRange (s : State) (w : Word) : (s.setI w).indexInRange := by
  have := s.setI_toNat w
  show (s.setI w).i.toNat < 0x1000
  omega

/-- Only writes through `State.setI` change I (R24, R25). -/
theorem exec_index (h : exec i s = .next t) : t.i = s.i ∨ t.indexInRange := by
  cases i with
  | ldI | addI | ldF => cases h; exact .inr (s.setI_indexInRange _)
  | _ => exact .inl (exec_frame h .i (by simp [mayWrite]))

/-- The moves of PC: none, a skip, the rewind of FX0A, a return, a jump to a 12-bit target (R28). -/
def PcMove (s t : State) : Prop :=
  t.pc = s.pc ∨ t.pc = s.pc + 2#16 ∨ t.pc = s.pc - 2#16 ∨ t.pc = s.top ∨ t.pc.toNat < 0x1000

theorem zext16_toNat_lt (nnn : Addr) : (zext16 nnn).toNat < 0x1000 := by
  have := nnn.isLt
  simp only [zext16, BitVec.toNat_setWidth]
  omega

theorem State.indexedTarget_toNat_lt (s : State) (nnn : Addr) : (s.indexedTarget nnn).toNat < 0x1000 := by
  simp only [State.indexedTarget, BitVec.toNat_ofNat]
  omega

theorem PcMove.skipIf (s : State) (c : Bool) : PcMove s (s.skipIf c) := by
  cases c
  · exact .inl rfl
  · exact .inr (.inl rfl)

theorem PcMove.skipOnKey (s : State) (k : Byte) (want : Bool) : PcMove s (s.skipOnKey k want) := by
  obtain ⟨c, e⟩ | ⟨d, e⟩ := s.skipOnKey_cases k want <;> rw [e]
  · exact .skipIf s c
  · exact .inl rfl

theorem PcMove.of_target (h : t.pc.toNat < 0x1000) : PcMove s t := .inr (.inr (.inr (.inr h)))

theorem exec_pcMove (h : exec i s = .next t) : PcMove s t := by
  cases i with
  | ret =>
    cases h
    split
    · exact .inl rfl
    · exact .inr (.inr (.inr (.inl rfl)))
  | jmp nnn => cases h; exact .of_target (zext16_toNat_lt nnn)
  | call nnn =>
    cases h
    split
    · exact .of_target (zext16_toNat_lt nnn)
    · exact .inl rfl
  | seImm | sneImm | seReg | sneReg => cases h; exact .skipIf s _
  | jmpV0 nnn => cases h; exact .of_target (s.indexedTarget_toNat_lt nnn)
  | skp | sknp => cases h; exact .skipOnKey s _ _
  | ldVxK x =>
    cases h
    split
    · exact .inr (.inr (.inl rfl))
    · exact .inl rfl
  | _ => exact .inl (exec_frame h .pc id)

/-- The stack entries change only by a push of PC (R29, R133). -/
theorem exec_stack (h : exec i s = .next t) :
    t.stack = s.stack ∨ ∃ hsp : s.sp.val < 16, t.stack = s.stack.set s.sp.val s.pc hsp := by
  cases i with
  | call nnn =>
    cases h
    split
    · exact .inr ⟨‹_›, rfl⟩
    · exact .inl rfl
  | _ => exact .inl ((exec_frame h).stack_eq (by simp [mayWrite]))

theorem State.skipOnKey_mem (s : State) (k : Byte) (want : Bool) : (s.skipOnKey k want).mem = s.mem := by
  obtain ⟨c, e⟩ | ⟨d, e⟩ := s.skipOnKey_cases k want <;> simp [e]

/-- The memory list, and not only what it reads as, is kept by all but FX33 and FX55 (R57). -/
theorem exec_mem (h : exec i s = .next t) (hb : ∀ x, i ≠ .ldB x) (hm : ∀ x, i ≠ .ldMemVx x) : t.mem = s.mem := by
  cases i with
  | ldB x => exact absurd rfl (hb x)
  | ldMemVx x => exact absurd rfl (hm x)
  | ret | call | ldVxK => cases h; split <;> rfl
  | seImm | sneImm | seReg | sneReg => cases h; exact s.skipIf_mem _
  | skp | sknp => cases h; exact s.skipOnKey_mem _ _
  | ldVxMem x => cases h; rw [State.loadRegs_eq]
  | _ => cases h; rfl

/-- Every instruction keeps memory canonical. -/
theorem exec_mem_wf (hwf : Memory.wf (resetByte s.params) s.mem) (h : exec i s = .next t) :
    Memory.wf (resetByte t.params) t.mem := by
  cases i with
  | ldB x => cases h; exact State.memWrite_wf (State.memWrite_wf (State.memWrite_wf hwf))
  | ldMemVx x => cases h; exact State.storeRegs_wf _ hwf
  | _ =>
    have hparams : t.params = s.params := exec_frame h .params id
    rw [hparams, exec_mem h nofun nofun]
    exact hwf

end

/-! ### The invariant, operation by operation -/

section
variable {i : Instr} {s t : State} {held : Config.Keys} {rnd : Byte}

theorem State.initialise_inv (s : State) : s.initialise.Inv := by
  have hindex : State.reset.indexInRange := by decide
  have hpc : State.reset.pcInRange := by decide
  exact ⟨Memory.wf_nil, hindex, hpc, nofun, fun _ => ⟨rfl, rfl⟩⟩

/-- Before execution PC stands past the word at an address of at most 0xFFE: between 2 and 0x1000. A skip then reaches
at most 0x1002, the rewind does not wrap, and a pushed return address is at most 0x1000 (R28). -/
theorem PcMove.pc_le (h : PcMove s t) (hlo : 2 ≤ s.pc.toNat) (hhi : s.pc.toNat ≤ 0x1000)
    (hstack : ∀ k : Fin 16, s.stack[k].toNat ≤ 0x1000) : t.pc.toNat ≤ 0x1002 := by
  have htop : s.top.toNat ≤ 0x1000 := hstack ⟨s.sp.val - 1, by omega⟩
  rcases h with e | e | e | e | hlt
  · rw [e]; omega
  · bv_omega
  · bv_omega
  · rw [e]; omega
  · omega

theorem exec_stack_le (h : exec i s = .next t) (hhi : s.pc.toNat ≤ 0x1000)
    (hstack : ∀ k : Fin 16, s.stack[k].toNat ≤ 0x1000) (k : Fin 16) : t.stack[k].toNat ≤ 0x1000 := by
  obtain e | ⟨hsp, e⟩ := exec_stack h <;> rw [e]
  · exact hstack k
  · simp only [Fin.getElem_fin, Vector.getElem_set]
    split
    · exact hhi
    · exact hstack k

/-- An instruction keeps the invariant, in the states execution starts from. -/
theorem exec_inv (hs : s.Inv) (hready : s.life = .ready) (hlo : 2 ≤ s.pc.toNat) (hhi : s.pc.toNat ≤ 0x1000)
    (h : exec i s = .next t) : t.Inv := by
  obtain ⟨hwf, hindex, ⟨-, hstack⟩, hkey, -⟩ := hs
  have hlife : t.life = .ready := (exec_frame h .life id).trans hready
  refine ⟨exec_mem_wf hwf h, ?_, ⟨(exec_pcMove h).pc_le hlo hhi hstack, exec_stack_le h hhi hstack⟩, ?_, ?_⟩
  · obtain e | hlt := exec_index h
    · rwa [State.indexInRange, e]
    · exact hlt
  · rw [State.lastKeyHeld, show t.lastKey = s.lastKey from exec_frame h .lastKey id, (exec_frame h).key_eq fun _ => id]
    exact hkey
  · rw [State.timersIdle, hlife]
    nofun

theorem State.sample_inv (hs : s.Inv) : (s.sample held rnd).Inv := by
  obtain ⟨hwf, hindex, hpc, -, htimers⟩ := hs
  exact ⟨hwf, hindex, hpc, fun k hk => held_of_keyQualifies (lowestKey_eq_some.mp hk).1, htimers⟩

theorem State.fetch_pc_toNat (hf : s.fetchable) : s.fetch.pc.toNat = s.pc.toNat + 2 := by
  rw [State.fetch_pc]
  bv_omega

theorem State.fetch_inv (hs : s.Inv) (hf : s.fetchable) : s.fetch.Inv := by
  obtain ⟨hwf, hindex, ⟨-, hstack⟩, hkey, htimers⟩ := hs
  refine ⟨hwf, hindex, ⟨?_, hstack⟩, hkey, htimers⟩
  rw [State.fetch_pc_toNat hf]
  bv_omega

/-- The word in OPCODE runs as its instruction, or raises UNRECOGNIZED (R111, R112). -/
theorem State.execute_cases (h : s.execute = .next t) : (∃ i, exec i s = .next t) ∨ ∃ d, t = s.raise d := by
  unfold State.execute at h
  split at h
  · exact .inl ⟨_, h⟩
  · cases h
    exact .inr ⟨_, rfl⟩

/-- A cycle that answers a next state is the no-op of a block that is not ready, or a fetch that succeeds and an
execution that is completed (R103, R104). -/
theorem State.cycle_cases (h : s.cycle held rnd = .next t) :
    (s.life ≠ .ready ∧ t = s) ∨
    (s.life = .ready ∧ s.fetchable ∧ ∃ u, (s.sample held rnd).fetch.execute = .next u ∧ t = u.complete) := by
  unfold State.cycle at h
  split at h
  · rename_i hready
    unfold State.fetchExecute at h
    split at h
    · exact .inr ⟨hready, ‹_›, completed_eq_next.mp h⟩
    · cases h
  · cases h
    exact .inl ⟨‹_›, rfl⟩

theorem State.cycle_inv (hs : s.Inv) (h : s.cycle held rnd = .next t) : t.Inv := by
  obtain ⟨-, rfl⟩ | ⟨hready, hf, u, hu, rfl⟩ := State.cycle_cases h
  · exact hs
  · have hfetched : (s.sample held rnd).fetch.Inv := State.fetch_inv (State.sample_inv hs) hf
    have hpc : (s.sample held rnd).fetch.pc.toNat = s.pc.toNat + 2 := State.fetch_pc_toNat (s := s.sample held rnd) hf
    have hexec : u.Inv := by
      obtain ⟨i, hi⟩ | ⟨d, rfl⟩ := State.execute_cases hu
      · exact exec_inv hfetched hready (by omega) (by bv_omega) hi
      · exact hfetched
    exact hexec

theorem State.loadRom_inv (s : State) (bytes : List Byte) (name : String) : (s.loadRom bytes name).Inv := by
  obtain ⟨-, hindex, hpc, hkey, -⟩ := s.initialise_inv
  unfold State.loadRom
  split
  · exact s.initialise_inv
  · rename_i hlen
    exact ⟨Memory.wf_load Memory.wf_nil (by simp only [romMax] at hlen; omega), hindex, hpc, hkey, nofun⟩

/-- A timer at 0 stays at 0 under a tick (R249). -/
theorem countDown_zero : countDown 0x00#8 = 0x00#8 := rfl

theorem State.tickDelayTimer_inv (hs : s.Inv) : s.tickDelayTimer.Inv := by
  obtain ⟨hwf, hindex, hpc, hkey, htimers⟩ := hs
  refine ⟨hwf, hindex, hpc, hkey, fun hlife => ?_⟩
  obtain ⟨hdt, hst⟩ := htimers hlife
  exact ⟨(congrArg countDown hdt).trans countDown_zero, hst⟩

theorem State.tickSoundTimer_inv (hs : s.Inv) : s.tickSoundTimer.Inv := by
  obtain ⟨hwf, hindex, hpc, hkey, htimers⟩ := hs
  refine ⟨hwf, hindex, hpc, hkey, fun hlife => ?_⟩
  obtain ⟨hdt, hst⟩ := htimers hlife
  exact ⟨hdt, (congrArg countDown hst).trans countDown_zero⟩

theorem State.needsInit_eq_next {op : HostOp} {u : State} (h : s.needsInit op u = .next t) : t = u := by
  unfold State.needsInit at h
  split at h <;> cases h
  rfl

theorem State.perform_inv {op : HostOp} (hs : s.Inv) (h : s.perform op = .next t) : t.Inv := by
  cases op with
  | initialise => cases h; exact s.initialise_inv
  | loadRom bytes name => cases h; exact s.loadRom_inv bytes name
  | cycle held rnd => exact State.cycle_inv hs h
  | tickDelayTimer => exact State.needsInit_eq_next h ▸ State.tickDelayTimer_inv hs
  | tickSoundTimer => exact State.needsInit_eq_next h ▸ State.tickSoundTimer_inv hs
  | drainChanges => exact State.needsInit_eq_next h ▸ hs
  | access a => exact State.needsInit_eq_next h ▸ hs

theorem State.draw_inv (hs : s.Inv) : s.draw.Inv := by
  unfold State.draw
  split <;> exact hs

end

/-! ### The change log is never read (R38, 20_memory R55) -/

/-- The state with another change log. -/
def State.withLog (s : State) (log : ChangeLog) : State := { s with log := log }

section
variable {i : Instr} {s t : State} (log : ChangeLog)

@[simp] theorem State.withLog_getV (s : State) (r : Nibble) : (s.withLog log).getV r = s.getV r := rfl
@[simp] theorem State.withLog_lastKey (s : State) : (s.withLog log).lastKey = s.lastKey := rfl
@[simp] theorem State.withLog_dataAddr (s : State) (k : Nat) : (s.withLog log).dataAddr k = s.dataAddr k := rfl

theorem State.withLog_memWrite (s : State) (a : Addr) (b : Byte) :
    (s.withLog log).memWrite a b = (s.memWrite a b).withLog (log ++ [(a, b)]) := rfl

theorem State.withLog_skipIf (s : State) (c : Bool) : (s.withLog log).skipIf c = (s.skipIf c).withLog log := by
  cases c <;> rfl

theorem State.withLog_skipOnKey (s : State) (k : Byte) (want : Bool) :
    (s.withLog log).skipOnKey k want = (s.skipOnKey k want).withLog log := by
  unfold State.skipOnKey
  by_cases h : k.toNat < 16
  · rw [dif_pos h, dif_pos h]
    exact s.withLog_skipIf log _
  · rw [dif_neg h, dif_neg h]
    rfl

theorem State.withLog_loadRegs (s : State) (n : Nat) :
    (s.withLog log).loadRegs n = (s.loadRegs n).withLog log := by
  induction n with
  | zero => rfl
  | succ n ih => rw [State.loadRegs_succ, State.loadRegs_succ, ih]; rfl

/-- The entries a block store of `n` registers appends (R184). -/
def State.storeEntries (s : State) (n : Nat) : ChangeLog :=
  (List.range n).map fun r => (s.dataAddr r, s.getV (regNumber r))

theorem State.storeEntries_succ (s : State) (n : Nat) :
    s.storeEntries (n + 1) = s.storeEntries n ++ [(s.dataAddr n, s.getV (regNumber n))] := by
  simp [State.storeEntries, List.range_succ]

theorem State.withLog_storeRegs (s : State) (n : Nat) :
    (s.withLog log).storeRegs n = (s.storeRegs n).withLog (log ++ s.storeEntries n) := by
  induction n with
  | zero => simp [State.storeRegs, State.storeEntries]
  | succ n ih =>
    rw [State.storeRegs_succ, State.storeRegs_succ, ih, State.withLog_memWrite, State.storeEntries_succ]
    simp

/-- The entries FX33 appends: hundreds, tens, units (R183). -/
def State.digitEntries (s : State) (b : Byte) : ChangeLog :=
  [(s.dataAddr 0, hundreds b)] ++ [(s.dataAddr 1, tens b)] ++ [(s.dataAddr 2, units b)]

/-- An instruction that stores nothing does the same over any change log, and carries that log along. -/
theorem exec_withLog (h : exec i s = .next t) (hb : ∀ x, i ≠ .ldB x) (hm : ∀ x, i ≠ .ldMemVx x) :
    exec i (s.withLog log) = .next (t.withLog log) := by
  cases i with
  | ldB x => exact absurd rfl (hb x)
  | ldMemVx x => exact absurd rfl (hm x)
  | ret =>
    cases h
    split <;> rename_i hsp
    · exact congrArg _ (if_pos hsp)
    · exact congrArg _ (if_neg hsp)
  | call nnn =>
    cases h
    split <;> rename_i hsp
    · exact congrArg _ (dif_pos hsp)
    · exact congrArg _ (dif_neg hsp)
  | seImm | sneImm | seReg | sneReg => cases h; exact congrArg _ (s.withLog_skipIf log _)
  | skp | sknp => cases h; exact congrArg _ (s.withLog_skipOnKey log _ _)
  | ldVxK x =>
    cases h
    split <;> rename_i hkey <;> simp only [exec, execLdVxK, State.withLog_lastKey, hkey] <;> rfl
  | ldVxMem x => cases h; exact congrArg _ (s.withLog_loadRegs log _)
  | _ => cases h; rfl

end

/-! ### The obligations -/

/-- Settles O57: every operation of the host keeps the invariant; for a cycle, fetch leaves PC between 2 and 0x1000, and
from there every instruction keeps it. -/
theorem stepKeepsTheInvariant : Obligations.StepKeepsTheInvariant := by
  intro s t hs h
  unfold step State.hostMove at h
  split at h
  · exact State.cycle_inv (State.draw_inv hs) h
  · rename_i op rest _
    exact State.perform_inv (s := { s with pending := rest }) hs h

/-- Settles O47: the frame of the instruction, at a register. -/
theorem registersWrittenOnlyAsNamed : Obligations.RegistersWrittenOnlyAsNamed :=
  fun _ _ _ r h hr => exec_frame h (.v r) hr

/-- Settles O48: the frame of the instruction at I, and the twelve-bit mask of every write to I. -/
theorem indexStaysTwelveBits : Obligations.IndexStaysTwelveBits := by
  refine ⟨fun i s t h => ⟨fun hldI haddI hldF => exec_frame h .i ?_, (exec_index h).resolve_left⟩, State.setI_toNat⟩
  rintro (⟨nnn, e⟩ | ⟨x, e⟩ | ⟨x, e⟩)
  exacts [hldI nnn e, haddI x e, hldF x e]

/-- Settles O49: the frame of the instruction, at each of the places the statement names. -/
theorem onlyTheNamedInstructionsWrite : Obligations.OnlyTheNamedInstructionsWrite := by
  intro i s t h
  have hf := exec_frame h
  refine ⟨fun hcall => hf.stack_eq fun _ ⟨nnn, e⟩ => hcall nnn e, fun hcall hret => hf .sp ?_, fun hb hm => ?_,
    fun hcls hdrw => hf.pix_eq ?_, hf.key_eq fun _ => id, hf .lastKey id, hf .opcode id, hf .life id⟩
  · rintro (⟨nnn, e⟩ | e)
    exacts [hcall nnn e, hret e]
  · have hnot : ¬ ((∃ x, i = .ldB x) ∨ ∃ x, i = .ldMemVx x) := by
      rintro (⟨x, e⟩ | ⟨x, e⟩)
      exacts [hb x e, hm x e]
    exact ⟨hf .log hnot, fun a => hf (.byte a) hnot⟩
  · rintro _ _ (e | ⟨x, y, n, e⟩)
    exacts [hcls e, hdrw x y n e]

/-- Settles O51: FX33 and FX55 append entries made from I and the registers; every other instruction carries the log
along. -/
theorem changeLogIsNeverRead : Obligations.ChangeLogIsNeverRead := by
  intro i s
  obtain ⟨t, h, hf⟩ := exec_next_frame i s
  cases i with
  | ldB x =>
    cases h
    refine ⟨_, s.digitEntries (s.getV x), rfl, ?_, fun log => ?_⟩ <;>
      rw [State.digitEntries, ← List.append_assoc, ← List.append_assoc] <;> rfl
  | ldMemVx x =>
    cases h
    exact ⟨_, s.storeEntries (x.toNat + 1), rfl, s.storeRegs_log _, fun log => congrArg _ (s.withLog_storeRegs log _)⟩
  | _ =>
    have hlog : t.log = s.log := hf .log (by simp [mayWrite])
    exact ⟨t, [], h, by rw [hlog, List.append_nil], fun log => by
      rw [List.append_nil]
      exact exec_withLog log h nofun nofun⟩

/-- Settles O59: canonical memories that read alike are equal, and every other field is the places it is made of. -/
theorem placesAreTheWholeState : Obligations.PlacesAreTheWholeState := by
  intro s t hs ht hf
  have hparams : t.params = s.params := hf .params id
  have hmem := hf.mem_eq (fun _ => id) hparams hs ht
  have hv := hf.v_eq fun _ => id
  have hstack := hf.stack_eq fun _ => id
  have hpix := hf.pix_eq fun _ _ => id
  have hkey := hf.key_eq fun _ => id
  cases s
  cases t
  rw [State.mk.injEq]
  exact ⟨hf .life id, hmem, hf .log id, hv, hf .i id, hf .pc id, hstack, hf .sp id, hf .dt id, hf .st id, hpix,
    hkey, hf .lastKey id, hf .opcode id, hf .rnd id, hf .draws id, hparams, hf .pending id, hf .outputs id⟩

/-- Settles O56: the accessors one by one. -/
theorem accessorsOnlyRead : Obligations.AccessorsOnlyRead := by
  intro s a hlife
  refine ⟨s.emit (.accessed (s.accessValue a)), s.accessValue a, if_neg hlife, rfl, frame_emit s _, ?_⟩
  cases a <;> simp [State.accessValue]

/-- Settles O58: `initialise()` sets every field the invariant speaks of to its reset value. -/
theorem resetMeetsTheInvariant : Obligations.ResetMeetsTheInvariant :=
  ⟨State.reset.initialise_inv, State.initialise_inv⟩

end Sys2Proof.Machine

/-! PROOFS. Memory as a cycle sees it (20_memory): the big-endian fetch, the change log that accounts for every byte
written, the drain of that log, and then the obligations. -/

namespace Sys2Proof.Machine
open Sys2Proof.Claims

/-! ### Fetch (20_memory R58, 40_cycle R108, 10_state R39) -/

section
variable {s t : State} {held : Config.Keys} {rnd : Byte}

/-- The second byte of the word at PC: PC wraps at 2^16, a multiple of the 2^12 addresses, so no carry is lost. -/
theorem State.pc_succ_setWidth (s : State) : (s.pc + 1#16).setWidth 12 = BitVec.ofNat 12 (s.pc.toNat + 1) :=
  BitVec.eq_of_toNat_eq (by simp)

theorem State.fetchWord_toNat (s : State) :
    s.fetchWord.toNat = (s.memRead (BitVec.ofNat 12 s.pc.toNat)).toNat * 256 +
      (s.memRead (BitVec.ofNat 12 (s.pc.toNat + 1))).toNat := by
  rw [State.fetchWord, wordOfBytes_toNat, State.pc_succ_setWidth, BitVec.ofNat_toNat]

/-- OPCODE is written by fetch alone, so after a cycle it is still the word that was at PC (R39, D22). -/
theorem State.cycle_opcode (hready : s.life = .ready) (h : s.cycle held rnd = .next t) : t.opcode = s.fetchWord := by
  obtain ⟨hnot, -⟩ | ⟨-, -, u, hu, rfl⟩ := State.cycle_cases h
  · exact absurd hready hnot
  · show u.opcode = (s.sample held rnd).fetch.opcode
    obtain ⟨i, hi⟩ | ⟨d, rfl⟩ := State.execute_cases hu
    · exact exec_frame hi .opcode id
    · rfl

end

/-! ### The change log accounts for memory (20_memory R54, R55) -/

/-- From `s` to `t` the change log grows by entries that, replayed over the memory of `s`, give the memory of `t`. -/
def LogReplays (s t : State) : Prop :=
  ∃ changes, t.log = s.log ++ changes ∧ t.memRead = replay s.memRead changes

section
variable {i : Instr} {s t u : State} {w : Loc → Prop} {held : Config.Keys} {rnd : Byte}

theorem replay_append (before : Addr → Byte) (c d : ChangeLog) :
    replay before (c ++ d) = replay (replay before c) d := List.foldl_append

theorem LogReplays.trans (h : LogReplays s t) (h' : LogReplays t u) : LogReplays s u := by
  obtain ⟨c, hlog, hmem⟩ := h
  obtain ⟨d, hlog', hmem'⟩ := h'
  exact ⟨c ++ d, by rw [hlog', hlog, List.append_assoc], by rw [hmem', hmem, replay_append]⟩

/-- What writes neither memory nor the log appends no entry. -/
theorem LogReplays.of_frame (h : Frame w s t) (hlog : ¬ w .log) (hbyte : ∀ a, ¬ w (.byte a)) : LogReplays s t :=
  ⟨[], (h .log hlog).trans (List.append_nil _).symm, funext fun a => h (.byte a) (hbyte a)⟩

theorem LogReplays.refl (s : State) : LogReplays s s := .of_frame (Frame.refl (w := fun _ => False) s) id fun _ => id

/-- `MemWrite` stores a byte and logs that very store (R54). -/
theorem LogReplays.memWrite (s : State) (a : Addr) (b : Byte) : LogReplays s (s.memWrite a b) :=
  ⟨[(a, b)], rfl, funext fun q => s.memRead_memWrite a q b⟩

theorem LogReplays.storeRegs (s : State) (n : Nat) : LogReplays s (s.storeRegs n) := by
  induction n with
  | zero => exact .refl s
  | succ n ih =>
    rw [State.storeRegs_succ]
    exact ih.trans (.memWrite _ _ _)

/-- FX33 and FX55 store through `MemWrite` only, and no other instruction writes memory or the log (R57). -/
theorem exec_logReplays (h : exec i s = .next t) : LogReplays s t := by
  cases i with
  | ldB x => cases h; exact ((LogReplays.memWrite s _ _).trans (.memWrite _ _ _)).trans (.memWrite _ _ _)
  | ldMemVx x => cases h; exact .storeRegs s _
  | _ => exact .of_frame (exec_frame h) (by simp [mayWrite]) (by simp [mayWrite])

theorem State.execute_logReplays (h : s.execute = .next t) : LogReplays s t := by
  obtain ⟨i, hi⟩ | ⟨d, rfl⟩ := State.execute_cases h
  · exact exec_logReplays hi
  · exact .of_frame (frame_raise s d) nofun nofun

theorem State.cycle_logReplays (h : s.cycle held rnd = .next t) : LogReplays s t := by
  obtain ⟨-, rfl⟩ | ⟨-, -, u, hu, rfl⟩ := State.cycle_cases h
  · exact .refl t
  · have hsample : LogReplays s (s.sample held rnd) := .of_frame (frame_sample s held rnd) (by simp) (by simp)
    have hfetch : LogReplays (s.sample held rnd) (s.sample held rnd).fetch :=
      .of_frame (frame_fetch _) (by simp) (by simp)
    have hcomplete : LogReplays u u.complete := .of_frame (frame_complete u) nofun nofun
    exact ((hsample.trans hfetch).trans (State.execute_logReplays hu)).trans hcomplete

end

/-! ### The drain (20_memory R56) -/

theorem frame_drainChanges (s : State) : Frame (fun l => l = .log ∨ l = .outputs) s s.drainChanges := by
  intro l hl
  cases l with
  | log => exact absurd (.inl rfl) hl
  | outputs => exact absurd (.inr rfl) hl
  | _ => rfl

/-! ### The obligations -/

/-- Settles O50: stores go through `MemWrite`, which logs them, and no other part of a cycle writes memory or the log. -/
theorem changeLogReplaysMemory : Obligations.ChangeLogReplaysMemory := by
  intro s t held rnd h
  obtain ⟨changes, hlog, hmem⟩ := State.cycle_logReplays h
  exact ⟨changes, hlog, fun a => congrFun hmem a⟩

/-- Settles O8: the word at PC as a number, the frame of fetch, and no instruction writing OPCODE. -/
theorem fetchIsBigEndianAndAdvances : Obligations.FetchIsBigEndianAndAdvances := by
  refine ⟨fun s _ => ⟨s.fetchWord_toNat, rfl, frame_fetch s, fun hpc hfirst hsecond => ?_⟩,
    fun s t held rnd => State.cycle_opcode⟩
  have hword : s.fetchWord = wordOfBytes (s.memRead 0x200#12) (s.memRead 0x201#12) := by rw [State.fetchWord, hpc]; rfl
  constructor
  · rw [State.fetch_opcode, hword, hfirst, hsecond]; rfl
  · rw [State.fetch_pc, hpc]; rfl

/-- Settles O52: an initialised block takes the drain, which touches the log and the outputs alone. -/
theorem drainHandsOutAndClears : Obligations.DrainHandsOutAndClears :=
  fun s hlife => ⟨s.drainChanges, if_neg hlife, rfl, rfl, frame_drainChanges s⟩

end Sys2Proof.Machine

/-! PROOFS. The encoding (30_encoding): a word from its fields and under the masks of the opcode map, the decoder as the
inverse of the encoder, the words it refuses, and the opcode map row by row; then the obligations. -/

namespace Sys2Proof
open Sys2Proof.Claims

/-! ### A word from its fields, and under the three masks of the opcode map (R81, R90) -/

section
variable (op : Word)

theorem wordA_fields : wordA (fieldK op) (fieldNNN op) = op := by
  apply BitVec.eq_of_toNat_eq
  rw [wordA_toNat, fieldK_toNat, fieldNNN_toNat]
  omega

theorem wordXNN_fields : wordXNN (fieldK op) (fieldX op) (fieldNN op) = op := by
  apply BitVec.eq_of_toNat_eq
  rw [wordXNN_toNat, fieldK_toNat, fieldX_toNat, fieldNN_toNat]
  omega

theorem wordXYN_fields : wordXYN (fieldK op) (fieldX op) (fieldY op) (fieldN op) = op :=
  word_ext (by simp) (by simp) (by simp) (by simp)

/-- The mask of the rows that the key alone selects. -/
theorem and_keyMask : op &&& 0xF000#16 = wordXYN (fieldK op) 0 0 0 := by
  conv_lhs => rw [← wordXYN_fields op]
  exact Laws.InRow.wordXYN_key _ _ _ _ _ (by simp) (by simp) (by simp) (by simp)

/-- The mask of the rows that the key and N select. -/
theorem and_keyNMask : op &&& 0xF00F#16 = wordXYN (fieldK op) 0 0 (fieldN op) := by
  conv_lhs => rw [← wordXYN_fields op]
  exact Laws.InRow.wordXYN_keySub _ _ _ _ _ (by simp) (by simp) (by simp) (by simp)

/-- The mask of the rows that the key and NN select. -/
theorem and_keyNNMask : op &&& 0xF0FF#16 = wordXNN (fieldK op) 0 (fieldNN op) := by
  conv_lhs => rw [← wordXNN_fields op]
  exact Laws.InRow.wordXNN_keySub _ _ _ _ (by simp) (by simp) (fieldY_wordXNN ..) (fieldN_wordXNN ..)

end

/-! ### Canonical spelling (R93) -/

theorem canonicalWord_iff {op : Word} : canonicalWord op = true ↔
    (fieldK op = 0x0#4 → op.extractLsb' 4 8 = 0x0E#8) ∧
    (fieldK op = 0x5#4 ∨ fieldK op = 0x9#4 → fieldN op = 0x0#4) := by
  unfold canonicalWord fieldK fieldN
  by_cases hk : op.extractLsb' 12 4 = 0x0#4
  · simp [hk]
  · by_cases hk' : op.extractLsb' 12 4 = 0x5#4 ∨ op.extractLsb' 12 4 = 0x9#4 <;> simp [hk, hk']

theorem canonicalWord_encode (i : Instr) : canonicalWord (encode i) = true := by
  cases i with
  | cls | ret => rfl
  | _ => simp [canonicalWord_iff, encode]

/-- The canonical spelling of key 0x0 leaves N alone open. -/
theorem eq_of_key0_canonical {op : Word} (hk : fieldK op = 0x0#4) (hc : canonicalWord op = true) :
    op = wordXYN 0x0#4 0x0#4 0xE#4 (fieldN op) := by
  have hmid := congrArg BitVec.toNat ((canonicalWord_iff.mp hc).1 hk)
  have hk := congrArg BitVec.toNat hk
  simp only [fieldK_toNat, BitVec.extractLsb'_toNat, Nat.shiftRight_eq_div_pow, BitVec.toNat_ofNat] at hk hmid
  apply BitVec.eq_of_toNat_eq
  simp only [wordXYN_toNat, fieldN_toNat, BitVec.toNat_ofNat]
  omega

/-! ### The decoder inverts the encoder -/

theorem decode_encode (i : Instr) : decode (encode i) = .ok i := by
  cases i with
  | cls | ret => rfl
  | ldReg | orReg | andReg | xorReg | addReg | subReg | shr | subn | shl => simp [encode, decode_key8, decodeKey8]
  | skp | sknp => simp [encode, decode_keyE, decodeKeyE]
  | ldVxDt | ldVxK | ldDt | ldSt | addI | ldF | ldB | ldMemVx | ldVxMem => simp [encode, decode_keyF, decodeKeyF]
  | _ => simp [encode, decode]

theorem decodeKey0_cls {op : Word} (h : fieldN op = 0x0#4) : decodeKey0 op = .ok .cls := by simp [decodeKey0, h]
theorem decodeKey0_ret {op : Word} (h : fieldN op = 0xE#4) : decodeKey0 op = .ok .ret := by simp [decodeKey0, h]

/-! ### The words the decoder refuses (R85 to R88, R91) -/

/-- A dispatch passes a word on to its last case exactly when each listed case refuses it. -/
theorem ite_ok_eq_error_iff {c : Prop} [Decidable c] {i : Instr} {r : Except DecodeError Instr} {e : DecodeError} :
    (if c then .ok i else r) = .error e ↔ ¬ c ∧ r = .error e := by
  split <;> simp [*]

section
variable {op : Word}

theorem decodeKey0_unrecognized_iff :
    decodeKey0 op = .error (.unrecognized op) ↔ ¬ fieldN op ∈ [0x0#4, 0xE#4] := by
  simp [decodeKey0, ite_ok_eq_error_iff]

theorem decodeKey8_unrecognized_iff :
    decodeKey8 op = .error (.unrecognized op) ↔ fieldN op ∈ [0x8#4, 0x9#4, 0xA#4, 0xB#4, 0xC#4, 0xD#4, 0xF#4] := by
  simp only [decodeKey8, ite_ok_eq_error_iff, and_true]
  generalize fieldN op = n
  revert n
  decide

theorem decodeKeyE_unrecognized_iff :
    decodeKeyE op = .error (.unrecognized op) ↔ ¬ fieldNN op ∈ [0x9E#8, 0xA1#8] := by
  simp [decodeKeyE, ite_ok_eq_error_iff]

theorem decodeKeyF_unrecognized_iff : decodeKeyF op = .error (.unrecognized op) ↔
    ¬ fieldNN op ∈ [0x07#8, 0x0A#8, 0x15#8, 0x18#8, 0x1E#8, 0x29#8, 0x33#8, 0x55#8, 0x65#8] := by
  simp [decodeKeyF, ite_ok_eq_error_iff]

end

/-! ### Every word that is not refused lies in a row (R90, R91)

Which rows there are is a finite fact about the table, one for each way a key dispatches. -/

theorem exists_row_of_key : ∀ k : Nibble, k ∉ [0x0#4, 0x8#4, 0xE#4, 0xF#4] →
    ∃ row ∈ opcodeMap, row.mask = 0xF000#16 ∧ row.mat = wordXYN k 0 0 0 := by decide

theorem exists_row_of_key0 : ∀ n ∈ [0x0#4, 0xE#4],
    ∃ row ∈ opcodeMap, row.mask = 0xF00F#16 ∧ row.mat = wordXYN 0x0#4 0 0 n := by decide

theorem exists_row_of_key8 : ∀ n : Nibble, n ∉ [0x8#4, 0x9#4, 0xA#4, 0xB#4, 0xC#4, 0xD#4, 0xF#4] →
    ∃ row ∈ opcodeMap, row.mask = 0xF00F#16 ∧ row.mat = wordXYN 0x8#4 0 0 n := by decide

theorem exists_row_of_keyE : ∀ nn ∈ [0x9E#8, 0xA1#8],
    ∃ row ∈ opcodeMap, row.mask = 0xF0FF#16 ∧ row.mat = wordXNN 0xE#4 0 nn := by decide

theorem exists_row_of_keyF : ∀ nn ∈ [0x07#8, 0x0A#8, 0x15#8, 0x18#8, 0x1E#8, 0x29#8, 0x33#8, 0x55#8, 0x65#8],
    ∃ row ∈ opcodeMap, row.mask = 0xF0FF#16 ∧ row.mat = wordXNN 0xF#4 0 nn := by decide

theorem unrecognized_of_unselected {op : Word} (h : ∀ row ∈ opcodeMap, op &&& row.mask ≠ row.mat) :
    decode op = .error (.unrecognized op) := by
  have no_row {mask mat : Word} (hop : op &&& mask = mat) :
      ¬ ∃ row ∈ opcodeMap, row.mask = mask ∧ row.mat = mat := by
    rintro ⟨row, hrow, rfl, rfl⟩
    exact h row hrow hop
  by_cases hk : fieldK op ∈ [0x0#4, 0x8#4, 0xE#4, 0xF#4]
  · simp only [List.mem_cons, List.not_mem_nil, or_false] at hk
    obtain hk | hk | hk | hk := hk
    · rw [decode_key0 hk, decodeKey0_unrecognized_iff]
      exact fun hn => no_row (hk ▸ and_keyNMask op) (exists_row_of_key0 _ hn)
    · rw [decode_key8 hk, decodeKey8_unrecognized_iff]
      by_contra hn
      exact no_row (hk ▸ and_keyNMask op) (exists_row_of_key8 _ hn)
    · rw [decode_keyE hk, decodeKeyE_unrecognized_iff]
      exact fun hnn => no_row (hk ▸ and_keyNNMask op) (exists_row_of_keyE _ hnn)
    · rw [decode_keyF hk, decodeKeyF_unrecognized_iff]
      exact fun hnn => no_row (hk ▸ and_keyNNMask op) (exists_row_of_keyF _ hnn)
  · exact absurd (exists_row_of_key _ hk) (no_row (and_keyMask op))

/-! ### The opcode map row by row (R90) -/

/-- What a row says of the words it selects: they decode to its instruction, and the canonical ones are
its encodings. -/
def RoundTripsAs (mat mask : Word) (ins : Word → Instr) : Prop :=
  ∀ op : Word, op &&& mask = mat → decode op = .ok (ins op) ∧ (canonicalWord op = true → encode (ins op) = op)

section
variable {m mask : Word}

/-- A row with no ignored bits: its words are the encodings. -/
theorem RoundTripsAs.of_encode {ins : Word → Instr} (h : ∀ op : Word, op &&& mask = m → encode (ins op) = op) :
    RoundTripsAs m mask ins := by
  intro op hop
  have hdecode := decode_encode (ins op)
  rw [h op hop] at hdecode
  exact ⟨hdecode, fun _ => h op hop⟩

/-! One lemma per format of a row; `i` is the row's instruction. -/

theorem roundTripsA (i : Addr → Instr) (hi : ∀ nnn, encode (i nnn) = wordA (fieldK m) nnn := by intros; rfl) :
    RoundTripsAs m 0xF000#16 (fun op => i (fieldNNN op)) :=
  .of_encode fun op hop => by rw [hi, ← fieldK_of_mask hop rfl, wordA_fields]

theorem roundTripsXNN (i : Nibble → Byte → Instr)
    (hi : ∀ x nn, encode (i x nn) = wordXNN (fieldK m) x nn := by intros; rfl) :
    RoundTripsAs m 0xF000#16 (fun op => i (fieldX op) (fieldNN op)) :=
  .of_encode fun op hop => by rw [hi, ← fieldK_of_mask hop rfl, wordXNN_fields]

theorem roundTripsXYN (i : Nibble → Nibble → Nibble → Instr)
    (hi : ∀ x y n, encode (i x y n) = wordXYN (fieldK m) x y n := by intros; rfl) :
    RoundTripsAs m 0xF000#16 (fun op => i (fieldX op) (fieldY op) (fieldN op)) :=
  .of_encode fun op hop => by rw [hi, ← fieldK_of_mask hop rfl, wordXYN_fields]

theorem roundTripsXYS (i : Nibble → Nibble → Instr)
    (hi : ∀ x y, encode (i x y) = wordXYN (fieldK m) x y (fieldN m) := by intros; rfl) :
    RoundTripsAs m 0xF00F#16 (fun op => i (fieldX op) (fieldY op)) :=
  .of_encode fun op hop => by rw [hi, ← fieldK_of_mask hop rfl, ← fieldN_of_mask hop rfl, wordXYN_fields]

theorem roundTripsXS (i : Nibble → Instr)
    (hi : ∀ x, encode (i x) = wordXNN (fieldK m) x (fieldNN m) := by intros; rfl) :
    RoundTripsAs m 0xF0FF#16 (fun op => i (fieldX op)) :=
  .of_encode fun op hop => by rw [hi, ← fieldK_of_mask hop rfl, ← fieldNN_of_mask hop rfl, wordXNN_fields]

/-- Key 0x0 ignores bits 11:4 (D9), which the canonical spelling fixes. -/
theorem roundTripsKey0 (i : Instr) (hdecode : ∀ {op}, fieldN op = fieldN m → decodeKey0 op = .ok i)
    (hm : fieldK m = 0x0#4) (hi : encode i = wordXYN 0x0#4 0x0#4 0xE#4 (fieldN m)) :
    RoundTripsAs m 0xF00F#16 (fun _ => i) := by
  intro op hop
  have hk : fieldK op = 0x0#4 := (fieldK_of_mask hop rfl).trans hm
  have hn : fieldN op = fieldN m := fieldN_of_mask hop rfl
  refine ⟨(decode_key0 hk).trans (hdecode hn), fun hc => ?_⟩
  rw [hi, ← hn, ← eq_of_key0_canonical hk hc]

/-- Keys 0x5 and 0x9 ignore N (D8), which the canonical spelling fixes. -/
theorem roundTripsXY (i : Nibble → Nibble → Instr)
    (hdecode : ∀ {op}, fieldK op = fieldK m → decode op = .ok (i (fieldX op) (fieldY op)))
    (hm : fieldK m = 0x5#4 ∨ fieldK m = 0x9#4)
    (hi : ∀ x y, encode (i x y) = wordXYN (fieldK m) x y 0x0#4 := by intros; rfl) :
    RoundTripsAs m 0xF000#16 (fun op => i (fieldX op) (fieldY op)) := by
  intro op hop
  have hk : fieldK op = fieldK m := fieldK_of_mask hop rfl
  refine ⟨hdecode hk, fun hc => ?_⟩
  have hn : fieldN op = 0x0#4 := (canonicalWord_iff.mp hc).2 (hk ▸ hm)
  rw [hi, ← hk, ← hn, wordXYN_fields]

end

theorem opcodeMap_roundTrips : ∀ row ∈ opcodeMap, RoundTripsAs row.mat row.mask row.ins := by
  simp only [opcodeMap, List.cons_append, List.nil_append, List.forall_mem_cons]
  exact ⟨roundTripsKey0 .cls decodeKey0_cls rfl rfl, roundTripsKey0 .ret decodeKey0_ret rfl rfl, roundTripsA .jmp,
    roundTripsA .call, roundTripsXNN .seImm, roundTripsXNN .sneImm,
    roundTripsXY .seReg decode_key5 (.inl rfl), roundTripsXNN .ldImm, roundTripsXNN .addImm, roundTripsXYS .ldReg,
    roundTripsXYS .orReg, roundTripsXYS .andReg, roundTripsXYS .xorReg, roundTripsXYS .addReg, roundTripsXYS .subReg,
    roundTripsXYS .shr, roundTripsXYS .subn, roundTripsXYS .shl, roundTripsXY .sneReg decode_key9 (.inr rfl),
    roundTripsA .ldI, roundTripsA .jmpV0, roundTripsXNN .rnd, roundTripsXYN .drw, roundTripsXS .skp,
    roundTripsXS .sknp, roundTripsXS .ldVxDt, roundTripsXS .ldVxK, roundTripsXS .ldDt, roundTripsXS .ldSt,
    roundTripsXS .addI, roundTripsXS .ldF, roundTripsXS .ldB, roundTripsXS .ldMemVx, roundTripsXS .ldVxMem,
    List.forall_mem_nil _⟩

/-- The clause `DecodesAs` of an instruction's own statement, from its place in the map. -/
theorem decodesAs_of_mem {mat mask : Word} {ins : Word → Instr} (h : ⟨mat, mask, ins⟩ ∈ opcodeMap) :
    DecodesAs mat mask ins := fun op hop => (opcodeMap_roundTrips _ h op hop).1

/-- What the decoder recognizes it recognizes by a row (R90). -/
theorem exists_row_of_decode_ok {op : Word} {i : Instr} (h : decode op = .ok i) :
    ∃ row ∈ opcodeMap, op &&& row.mask = row.mat ∧ row.ins op = i := by
  by_cases hnone : ∀ row ∈ opcodeMap, op &&& row.mask ≠ row.mat
  · exact nomatch h.symm.trans (unrecognized_of_unselected hnone)
  · push Not at hnone
    obtain ⟨row, hrow, hop⟩ := hnone
    exact ⟨row, hrow, hop, Except.ok.inj ((opcodeMap_roundTrips row hrow op hop).1.symm.trans h)⟩

/-- Rows are disjoint where their matches differ on the bits both masks keep. -/
theorem opcodeMap_matches_differ :
    opcodeMap.Pairwise fun a b => a.mat &&& b.mask ≠ b.mat &&& a.mask := by decide

/-! ### The obligations -/

/-- Settles O1: every instruction the types can build is encodable, so well-formedness is not needed. -/
theorem decodeInvertsEncode : Obligations.DecodeInvertsEncode := fun i _ => decode_encode i

/-- Settles O2: a word that decodes lies in a row, and a row's canonical words are encodings. -/
theorem encodeInvertsDecodeOnCanonicalWords : Obligations.EncodeInvertsDecodeOnCanonicalWords := by
  refine ⟨canonicalWord_encode, fun op i hc h => ?_⟩
  obtain ⟨row, hrow, hop, rfl⟩ := exists_row_of_decode_ok h
  exact (opcodeMap_roundTrips row hrow op hop).2 hc

/-- Settles O3: the rows one by one, and a word of two rows would make their matches agree under both masks. -/
theorem opcodeMapDecodes : Obligations.OpcodeMapDecodes := by
  refine ⟨rfl, fun row hrow => decodesAs_of_mem hrow, opcodeMap_matches_differ.imp ?_,
    fun op => unrecognized_of_unselected⟩
  rintro a b hne op ⟨ha, hb⟩
  exact hne (by rw [← ha, ← hb, BitVec.and_assoc, BitVec.and_assoc, BitVec.and_comm a.mask])

/-- Settles O4: the three sub-dispatches refuse what they do not list, and what they list are encodings. -/
theorem subDispatchRecognizesItsList : Obligations.SubDispatchRecognizesItsList := by
  intro op
  refine ⟨fun hk => ?_, fun hk => ?_, fun hk => ?_, fun x y => ?_, fun x => ?_⟩
  · rw [decode_key8 hk, decodeKey8_unrecognized_iff]
  · rw [decode_keyE hk, decodeKeyE_unrecognized_iff]
  · rw [decode_keyF hk, decodeKeyF_unrecognized_iff]
  · exact ⟨decode_encode (.ldReg x y), decode_encode (.orReg x y), decode_encode (.andReg x y),
      decode_encode (.xorReg x y), decode_encode (.addReg x y), decode_encode (.subReg x y), decode_encode (.shr x y),
      decode_encode (.subn x y), decode_encode (.shl x y)⟩
  · exact ⟨decode_encode (.skp x), decode_encode (.sknp x), decode_encode (.ldVxDt x), decode_encode (.ldVxK x),
      decode_encode (.ldDt x), decode_encode (.ldSt x), decode_encode (.addI x), decode_encode (.ldF x),
      decode_encode (.ldB x), decode_encode (.ldMemVx x), decode_encode (.ldVxMem x)⟩

/-- Settles O5: seven encodings, and a word of key 0x8 whose N is not listed. -/
theorem sampleWordsDecode : Obligations.SampleWordsDecode :=
  ⟨decode_encode .cls, decode_encode .ret, decode_encode (.jmp 0xAAA#12), decode_encode (.addReg 0xA#4 0xB#4),
    decode_encode (.drw 0x1#4 0x2#4 0x3#4), decode_encode (.skp 0x5#4), decode_encode (.ldVxMem 0x2#4),
    (decode_key8 rfl).trans (decodeKey8_unrecognized_iff.mpr (by decide))⟩

end Sys2Proof

/-! PROOFS. The cycle (40_cycle): what a ready block's cycle is, case by case; the keypad it samples; the diagnostics an
instruction can raise; and then the obligations. -/

namespace Sys2Proof.Machine
open Sys2Proof.Claims

/-! ### What a cycle is, case by case (R103, R104, R110 to R112) -/

section
variable {s : State} {held : Config.Keys} {rnd : Byte} {i : Instr} {e : DecodeError}

theorem State.execute_of_decode_ok (h : decode s.opcode = .ok i) : s.execute = exec i s := by
  simp [State.execute, h]

theorem State.execute_of_decode_error (h : decode s.opcode = .error e) :
    s.execute = .next (s.raise (.unrecognized s.instrAddr s.opcode)) := by
  simp [State.execute, h]

theorem State.cycle_of_ready (hready : s.life = .ready) : s.cycle held rnd = (s.sample held rnd).fetchExecute :=
  if_pos hready

/-- Sampling the inputs moves neither PC nor memory, so what a cycle fetches, if it can, is that of the state
before. -/
theorem State.cycle_of_fetchable (hready : s.life = .ready) (hf : s.fetchable) :
    s.cycle held rnd = completed (s.sample held rnd).fetch.execute :=
  (State.cycle_of_ready hready).trans (if_pos hf)

theorem State.cycle_of_not_fetchable (hready : s.life = .ready) (hf : ¬ s.fetchable) :
    s.cycle held rnd = .fault (.fetchRange ((s.sample held rnd).raise (.fetchRange s.pc)).complete) :=
  (State.cycle_of_ready hready).trans (if_neg hf)

theorem State.cycle_of_decode_ok (hready : s.life = .ready) (hf : s.fetchable) (hd : decode s.fetchWord = .ok i) :
    s.cycle held rnd = completed (exec i (s.sample held rnd).fetch) := by
  rw [State.cycle_of_fetchable hready hf, State.execute_of_decode_ok (s := (s.sample held rnd).fetch) hd]

/-- After fetch the address of the instruction in execution is the PC it was fetched from (R26). -/
@[simp] theorem State.fetch_instrAddr (s : State) : s.fetch.instrAddr = s.pc := BitVec.add_sub_cancel s.pc 2#16

theorem State.cycle_of_decode_error (hready : s.life = .ready) (hf : s.fetchable)
    (hd : decode s.fetchWord = .error e) :
    s.cycle held rnd =
      .next ((s.sample held rnd).fetch.raise (.unrecognized s.pc s.fetchWord)).complete := by
  rw [State.cycle_of_fetchable hready hf, State.execute_of_decode_error (s := (s.sample held rnd).fetch) hd,
    State.fetch_instrAddr]
  rfl

/-- Steps 1 and 2 of a cycle write the input places, OPCODE and PC (R104). -/
theorem frame_sample_fetch (s : State) (held : Config.Keys) (rnd : Byte) :
    Frame (fun l => inputPlace l ∨ l = .opcode ∨ l = .pc) s (s.sample held rnd).fetch :=
  (frame_sample s held rnd).seq (frame_fetch _)

/-! ### The host's choice of a cycle (R102, log entries 1 and 4) -/

theorem step_of_scheduled_cycle {rest : List HostOp} (h : s.pending = .cycle held rnd :: rest) :
    step s = { s with pending := rest }.cycle held rnd := by
  simp [step, State.hostMove, h, State.perform]

theorem step_of_nothing_scheduled (hready : s.life = .ready) (h : s.pending = []) :
    step s = { s with draws := s.draws + 1 }.cycle (Config.freeHeld s.draws) (Config.freeRnd s.draws) := by
  simp [step, State.hostMove, h, State.freeCycle, State.draw, hready]

end

/-! ### The keypad a cycle samples (R105, R106) -/

section
variable {s t : State} {held : Config.Keys} {rnd : Byte}

/-- No instruction writes the keypad or the last key (R35, R36), and neither does a diagnostic. -/
theorem State.execute_keypad (h : s.execute = .next t) : t.key = s.key ∧ t.lastKey = s.lastKey := by
  obtain ⟨i, hi⟩ | ⟨d, rfl⟩ := State.execute_cases h
  · exact ⟨(exec_frame hi).key_eq fun _ => id, exec_frame hi .lastKey id⟩
  · exact ⟨rfl, rfl⟩

theorem State.cycle_keypad (hready : s.life = .ready) (h : s.cycle held rnd = .next t) :
    t.key = held ∧ t.lastKey = lowestKey s.params.keywaitMode s.key held := by
  obtain ⟨hnot, -⟩ | ⟨-, -, u, hu, rfl⟩ := State.cycle_cases h
  · exact absurd hready hnot
  · exact State.execute_keypad hu

theorem keyQualifies_iff {mode : Config.KeywaitMode} {prev now : Config.Keys} {k : Fin 16} :
    keyQualifies mode prev now k = true ↔ Qualifies mode prev now k := by
  cases mode <;> simp [keyQualifies, Qualifies]

theorem isLastKey_lowestKey (mode : Config.KeywaitMode) (prev now : Config.Keys) :
    IsLastKey mode prev now (lowestKey mode prev now) := by
  simp only [IsLastKey, ← keyQualifies_iff, Bool.not_eq_true]
  exact ⟨lowestKey_eq_none, fun _ => lowestKey_eq_some⟩

end

/-! ### What an instruction can put out (60_exceptions R240, R241) -/

/-- From `s` to `t` either nothing is put out, or one diagnostic other than the fetch's own is raised and nothing else
done. -/
def RaisesAtMostOne (s t : State) : Prop :=
  t.outputs = s.outputs ∨ ∃ d : Diagnostic, (∀ pc, d ≠ .fetchRange pc) ∧ t = s.raise d

/-- Code 5 is the fetch's own; every other diagnostic has a code of 1 to 4 (R241). -/
theorem Diagnostic.code_of_ne_fetchRange {d : Diagnostic} (h : ∀ pc, d ≠ .fetchRange pc) :
    1 ≤ d.code ∧ d.code ≤ 4 := by
  cases d with
  | fetchRange pc => exact absurd rfl (h pc)
  | _ => simp [Diagnostic.code]

section
variable {i : Instr} {s t : State}

theorem RaisesAtMostOne.skipOnKey (s : State) (k : Byte) (want : Bool) :
    RaisesAtMostOne s (s.skipOnKey k want) := by
  unfold State.skipOnKey
  split
  · exact .inl (s.skipIf_outputs _)
  · exact .inr ⟨.keyRange .., nofun, rfl⟩

theorem exec_raisesAtMostOne (h : exec i s = .next t) : RaisesAtMostOne s t := by
  cases i with
  | ret =>
    cases h
    split
    · exact .inr ⟨.stackUnderflow .., nofun, rfl⟩
    · exact .inl rfl
  | call nnn =>
    cases h
    split
    · exact .inl rfl
    · exact .inr ⟨.stackOverflow .., nofun, rfl⟩
  | skp | sknp => cases h; exact .skipOnKey s _ _
  | _ => exact .inl (exec_frame h .outputs id)

theorem State.execute_next (s : State) : ∃ t, s.execute = .next t ∧ RaisesAtMostOne s t := by
  cases hd : decode s.opcode with
  | ok i =>
    obtain ⟨t, ht, -⟩ := exec_next_frame i s
    exact ⟨t, (State.execute_of_decode_ok hd).trans ht, exec_raisesAtMostOne ht⟩
  | error e =>
    exact ⟨_, State.execute_of_decode_error hd, .inr ⟨.unrecognized .., nofun, rfl⟩⟩

end

/-! ### The word at PC (R107, R108) -/

section
variable {s t : State} {w : Loc → Prop}

/-- The word at PC is fixed by PC and memory. -/
theorem Frame.fetchWord_eq (h : Frame w s t) (hpc : t.pc = s.pc) (hw : ∀ a, ¬ w (.byte a)) :
    t.fetchWord = s.fetchWord := by
  have hbyte (a : Addr) : t.memRead a = s.memRead a := h (.byte a) (hw a)
  rw [State.fetchWord, hbyte, hbyte, hpc, State.fetchWord]

/-- A place that came back to its value need not be named as written. -/
theorem Frame.of_restored {l : Loc} (h : Frame (fun m => w m ∨ m = l) s t) (hl : Loc.same s t l) : Frame w s t := by
  intro m hm
  by_cases hml : m = l
  · exact hml ▸ hl
  · exact h m fun hor => hor.elim hm hml

end

/-! ### The obligations -/

/-- Settles O9: the refresh sets the key states, and nothing after it writes them. -/
theorem keypadHoldsTheCyclesSample : Obligations.KeypadHoldsTheCyclesSample := by
  intro s t held rnd hready
  refine ⟨fun h k => ?_, State.cycle_of_ready hready⟩
  obtain ⟨hkey, -⟩ := State.cycle_keypad hready h
  rw [hkey]

/-- Settles O10: the refresh takes the lowest key that qualifies, and nothing after it writes the last key. -/
theorem lastKeyIsTheLowestThatQualifies : Obligations.LastKeyIsTheLowestThatQualifies := by
  intro s t held rnd hready h
  obtain ⟨-, hlast⟩ := State.cycle_keypad hready h
  rw [hlast]
  exact isLastKey_lowestKey _ _ _

/-- Settles O11: once the word is fetched, its execution always answers a next state; and only a fetch that succeeds
does. -/
theorem cycleCompletesWhenFetchable : Obligations.CycleCompletesWhenFetchable := by
  intro s held rnd hready
  constructor
  · intro hf
    obtain ⟨u, hu, -⟩ := (s.sample held rnd).fetch.execute_next
    exact ⟨u.complete, by rw [State.cycle_of_fetchable hready hf, hu]; rfl⟩
  · rintro ⟨t, h⟩
    obtain ⟨hnot, -⟩ | ⟨-, hf, -⟩ := State.cycle_cases h
    · exact absurd hready hnot
    · exact hf

/-- Settles O12: the state left is the sampled one with two outputs added; it is ready at the same PC, so every further
cycle is in the same case. -/
theorem fetchRangeDefect : Obligations.FetchRangeDefect := by
  intro s held rnd hready hf
  have hcycle := State.cycle_of_not_fetchable (held := held) (rnd := rnd) hready hf
  have hframe : Frame (fun l => inputPlace l ∨ l = .outputs) s
      ((s.sample held rnd).raise (.fetchRange s.pc)).complete :=
    (frame_sample s held rnd).seq ((frame_raise _ _).trans (frame_complete _))
  refine ⟨_, hcycle, List.append_assoc .., fun _ => rfl, isLastKey_lowestKey _ _ _, hframe, fun held' rnd' => ?_⟩
  have hlife := (hframe .life (by simp [inputPlace])).trans hready
  exact ⟨_, State.cycle_of_not_fetchable hlife hf, by simp⟩

/-- Settles O13: the inputs sampled, the word fetched, the diagnostic raised and the cycle completed, one after
another. -/
theorem unrecognizedWordIsANoOpWithADiagnostic : Obligations.UnrecognizedWordIsANoOpWithADiagnostic := by
  intro s held rnd e hready hf hd
  have houtputs : Frame (· = .outputs) (s.sample held rnd).fetch
      ((s.sample held rnd).fetch.raise (.unrecognized s.pc s.fetchWord)).complete :=
    (frame_raise _ _).trans (frame_complete _)
  refine ⟨_, State.cycle_of_decode_error hready hf hd, rfl, rfl, List.append_assoc .., ?_⟩
  exact ((frame_sample_fetch s held rnd).seq houtputs).mono fun _ => by simp only [or_assoc, imp_self]

/-- Settles O14: execution puts out nothing or one diagnostic, and step 4 puts CycleComplete after it. -/
theorem oneCompletionAtMostOneDiagnostic : Obligations.OneCompletionAtMostOneDiagnostic := by
  intro s t held rnd hready h
  obtain ⟨hnot, -⟩ | ⟨-, -, u, hu, rfl⟩ := State.cycle_cases h
  · exact absurd hready hnot
  obtain hnone | ⟨d, hd, rfl⟩ := of_exists_next hu (State.execute_next _)
  · exact .inl (congrArg (· ++ [Output.cycleComplete]) hnone)
  · obtain ⟨hlo, hhi⟩ := Diagnostic.code_of_ne_fetchRange hd
    exact .inr ⟨d, hlo, hhi, List.append_assoc ..⟩

/-- Settles O17: the jump undoes the fetch's advance of PC, so PC and memory, and with them the word at PC, are as
before. -/
theorem haltIdiomStaysHalted : Obligations.HaltIdiomStaysHalted := by
  rintro s held rnd ⟨hready, hf, nnn, hword, hpc⟩
  have hd : decode s.fetchWord = .ok (.jmp nnn) := hword ▸ decode_encode (.jmp nnn)
  have hcycle : s.cycle held rnd = .next ((s.sample held rnd).fetch.setPc (zext16 nnn)).complete :=
    State.cycle_of_decode_ok hready hf hd
  have hframe : Frame (fun l => inputPlace l ∨ l = .opcode ∨ l = .outputs) s
      ((s.sample held rnd).fetch.setPc (zext16 nnn)).complete := by
    refine Frame.of_restored (l := .pc) ?_ hpc.symm
    refine ((frame_sample_fetch s held rnd).mono ?_).trans
      (((frame_setPc _ _).of_single (.inr rfl)).trans ((frame_complete _).of_single (.inl (.inr (.inr rfl)))))
    rintro _ (h | rfl | rfl)
    exacts [.inl (.inl h), .inl (.inr (.inl rfl)), .inr rfl]
  have hword' := hframe.fetchWord_eq hpc.symm (by simp [inputPlace])
  have hf' : zext16 nnn ≤ 0x0FFE#16 := hpc ▸ hf
  exact ⟨_, hcycle, ⟨hready, hf', nnn, hword'.trans hword, rfl⟩, rfl, rfl, hframe⟩

/-- Settles O6: a step is the scheduled cycle or one on free inputs, and a ready block's cycle goes by what the word at
PC decodes to; neither the schedule nor the count of draws is a part of the fetch. -/
theorem stepRunsTheDecodedInstruction : Obligations.StepRunsTheDecodedInstruction := by
  intro s hready hf
  refine ⟨fun held rnd rest hpending => ?_, fun hpending => ?_⟩
  · rw [step_of_scheduled_cycle hpending]
    exact ⟨fun i hd => State.cycle_of_decode_ok hready hf hd, fun e hd => State.cycle_of_decode_error hready hf hd⟩
  · rw [step_of_nothing_scheduled hready hpending]
    exact ⟨fun i hd => State.cycle_of_decode_ok hready hf hd, fun e hd => State.cycle_of_decode_error hready hf hd⟩

/-- Settles O7: the ready test comes before everything else in a cycle. -/
theorem cycleIsANoOpUnlessReady : Obligations.CycleIsANoOpUnlessReady :=
  fun _ _ _ hnot => if_neg hnot

end Sys2Proof.Machine

/-! PROOFS. Control flow (41_control_flow): where jumps and skips take PC, the stack under CALL and RET, and then the
obligations. -/

namespace Sys2Proof.Machine
open Sys2Proof.Claims

/-! ### Jump targets and skips (R107, R130, R132, R138) -/

theorem zext16_toNat (nnn : Addr) : (zext16 nnn).toNat = nnn.toNat := BitVec.toNat_setWidth_of_le (by decide)

theorem State.indexedTarget_toNat (s : State) (nnn : Addr) :
    (s.indexedTarget nnn).toNat = (nnn.toNat + (s.getV 0x0#4).toNat) % 4096 := by
  simp only [State.indexedTarget, BitVec.toNat_ofNat]
  omega

/-- No word starts at the last byte of memory. -/
theorem State.not_fetchable_of_pc_last {s : State} (h : s.pc = 0xFFF#16) : ¬ s.fetchable := by
  rw [State.fetchable, h]
  decide

theorem State.skipIf_pc_toNat (s : State) (c : Bool) :
    (s.skipIf c).pc.toNat = if c then (s.pc.toNat + 2) % 65536 else s.pc.toNat := by
  cases c <;> rfl

/-- The form of SE: skip exactly when the operands are equal. -/
theorem State.skipIf_beq_pc_toNat (s : State) (a b : Byte) :
    (s.skipIf (a == b)).pc.toNat = if a = b then (s.pc.toNat + 2) % 65536 else s.pc.toNat := by
  rw [State.skipIf_pc_toNat]
  simp

/-- The form of SNE: skip exactly when the operands differ. -/
theorem State.skipIf_bne_pc_toNat (s : State) (a b : Byte) :
    (s.skipIf (a != b)).pc.toNat = if a = b then s.pc.toNat else (s.pc.toNat + 2) % 65536 := by
  rw [State.skipIf_pc_toNat]
  simp

/-! ### The stack (R29 to R31) -/

section
variable {s : State}

theorem State.top_eq {k : Fin 16} (h : s.sp.val = k.val + 1) : s.top = s.stack[k] := by
  simp [State.top, h]

theorem State.top_congr {t : State} (hstack : s.stack = t.stack) (hsp : s.sp = t.sp) : s.top = t.top := by
  simp only [State.top, hstack, hsp]

@[simp] theorem State.push_top (s : State) (w : Word) (h : s.sp.val < 16) : (s.push w h).top = w := by
  simp [State.top]

end

/-! ### RET and CALL, case by case (R131, R133, D6) -/

section
variable {s : State}

theorem exec_ret_of_pos (h : s.sp.val ≠ 0) : exec .ret s = .next (s.setPc s.top).pop := congrArg _ (if_neg h)

theorem exec_ret_of_empty (h : s.sp.val = 0) :
    exec .ret s = .next (s.raise (.stackUnderflow s.instrAddr s.opcode)) := congrArg _ (if_pos h)

theorem exec_call_of_room (nnn : Addr) (h : s.sp.val < 16) :
    exec (.call nnn) s = .next ((s.push s.pc h).setPc (zext16 nnn)) := congrArg _ (dif_pos h)

theorem exec_call_of_full (nnn : Addr) (h : ¬ s.sp.val < 16) :
    exec (.call nnn) s = .next (s.raise (.stackOverflow s.instrAddr s.opcode)) := congrArg _ (dif_neg h)

end

/-! ### The obligations -/

/-- Settles O18: SP tells the two cases apart, and with SP = k+1 the top is entry k. -/
theorem returnFromSubroutine : Obligations.ReturnFromSubroutine := by
  refine ⟨decodesAs_of_mem (by simp [opcodeMap]), fun s => ⟨fun k hk => ?_, fun hempty => ?_⟩⟩
  · have hpos : s.sp.val ≠ 0 := by omega
    refine ⟨_, exec_ret_of_pos hpos, State.top_eq hk, ?_, (frame_setPc s _).seq (frame_pop _)⟩
    simp [hk]
  · exact ⟨_, exec_ret_of_empty hempty, rfl, frame_raise s _⟩

/-- Settles O20: SP tells the two cases apart, and with SP = k the entry pushed is entry k. -/
theorem callSubroutine : Obligations.CallSubroutine := by
  refine ⟨decodesAs_of_mem (by simp [opcodeMap]), fun nnn s => ⟨fun k hk => ?_, fun hfull => ?_⟩⟩
  · have hroom : s.sp.val < 16 := hk ▸ k.isLt
    obtain rfl : k = ⟨s.sp.val, hroom⟩ := Fin.ext hk.symm
    have hframe := (frame_push s s.pc hroom).seq (frame_setPc (s.push s.pc hroom) (zext16 nnn))
    exact ⟨_, exec_call_of_room nnn hroom, by simp, rfl, zext16_toNat nnn, hframe.mono fun _ => or_assoc.mp⟩
  · exact ⟨_, exec_call_of_full nnn (by omega), rfl, frame_raise s _⟩

/-- Settles O21: RET takes the top of the stack CALL left, which is the PC pushed, and undoes the step of SP. -/
theorem returnUndoesCall : Obligations.ReturnUndoesCall := by
  intro nnn s hroom
  refine ⟨_, exec_call_of_room nnn hroom, fun u hstack hsp => ?_⟩
  have hsp' : u.sp.val = s.sp.val + 1 := congrArg Fin.val hsp
  have hpos : u.sp.val ≠ 0 := by omega
  refine ⟨_, exec_ret_of_pos hpos, ?_, Fin.ext ?_⟩
  · calc u.top = (s.push s.pc hroom).top := State.top_congr hstack hsp
      _ = s.pc := s.push_top s.pc hroom
  · simp [hsp']

/-- Settles O22: both are a conditional skip on the same comparison. -/
theorem skipOnImmediate : Obligations.SkipOnImmediate :=
  ⟨decodesAs_of_mem (by simp [opcodeMap]), decodesAs_of_mem (by simp [opcodeMap]), fun _ _ s =>
    ⟨⟨_, rfl, frame_skipIf s _, s.skipIf_beq_pc_toNat _ _⟩, ⟨_, rfl, frame_skipIf s _, s.skipIf_bne_pc_toNat _ _⟩⟩⟩

/-- Settles O23: both are a conditional skip on the same comparison. -/
theorem skipOnRegisters : Obligations.SkipOnRegisters :=
  ⟨decodesAs_of_mem (by simp [opcodeMap]), decodesAs_of_mem (by simp [opcodeMap]), fun _ _ s =>
    ⟨⟨_, rfl, frame_skipIf s _, s.skipIf_beq_pc_toNat _ _⟩, ⟨_, rfl, frame_skipIf s _, s.skipIf_bne_pc_toNat _ _⟩⟩⟩

/-- Settles O19: the jump writes PC alone, and no word starts at 0xFFF. -/
theorem jumpSetsPc : Obligations.JumpSetsPc := by
  refine ⟨decodesAs_of_mem (by simp [opcodeMap]), fun nnn s => ⟨_, rfl, zext16_toNat nnn, frame_setPc s _, ?_⟩⟩
  rintro rfl
  exact State.not_fetchable_of_pc_last rfl

/-- Settles O24: the jump writes PC alone, and no word starts at 0xFFF. -/
theorem indexedJump : Obligations.IndexedJump :=
  ⟨decodesAs_of_mem (by simp [opcodeMap]), fun nnn s =>
    ⟨_, rfl, s.indexedTarget_toNat nnn, frame_setPc s _, State.not_fetchable_of_pc_last⟩⟩

end Sys2Proof.Machine

/-! PROOFS. The register ALU (42_alu): the flag computations on numbers, what the flag forms read and leave, the
`rnd` input, and then the obligations. -/

namespace Sys2Proof.Machine
open Sys2Proof.Claims

/-! ### The flag computations on numbers (R151, R158 to R162) -/

section
variable (a b : Byte)

theorem carryOut_iff : carryOut a b = true ↔ a.toNat + b.toNat > 255 := decide_eq_true_iff

theorem strictlyGreater_iff : strictlyGreater a b = true ↔ a.toNat > b.toNat := decide_eq_true_iff

theorem lowBit_iff : lowBit a = true ↔ a.toNat % 2 = 1 := by
  rw [lowBit, BitVec.getLsbD, Nat.testBit_zero, decide_eq_true_iff]

theorem highBit_iff : highBit a = true ↔ a.toNat ≥ 128 := by
  have hmsb : highBit a = a.msb := (BitVec.msb_eq_getLsbD_last a).symm
  rw [hmsb, BitVec.msb_eq_decide, decide_eq_true_iff]

theorem flagByte_strictlyGreater_toNat : (flagByte (strictlyGreater a b)).toNat = bit (a.toNat > b.toNat) := by
  simp only [flagByte, strictlyGreater_iff, bit]
  split <;> rfl

/-- The difference modulo 256 without a negative number (R159, R161). -/
theorem byte_sub_toNat : (a - b).toNat = (a.toNat + 256 - b.toNat) % 256 := by
  rw [BitVec.toNat_sub', ← Nat.add_sub_assoc b.isLt.le]

end

/-- A flag byte shifted right has lost its only bit. -/
theorem flagByte_ushiftRight_one (c : Bool) : flagByte c >>> 1 = 0x00#8 := by cases c <;> rfl

theorem flagByte_shiftLeft_one_toNat (c : Bool) : (flagByte c <<< 1).toNat = if c then 2 else 0 := by cases c <;> rfl

/-! ### The flag forms: VF first, then Vx on the registers as that left them (R150, D15) -/

section
variable (s : State) {x r : Nibble}

theorem State.setFlag_getV_flag (c : Bool) : (s.setFlag c).getV 0xF#4 = flagByte c := by simp

theorem State.setFlag_getV_other (c : Bool) (hr : r ≠ 0xF#4) : (s.setFlag c).getV r = s.getV r := by simp [hr]

/-- The write of Vx leaves the flag to be read, unless X = F. -/
theorem flagSays_setFlag_setV {c : Bool} {b : Byte} {p : Prop} (hx : x ≠ 0xF#4) (hc : c = true ↔ p) :
    FlagSays ((s.setFlag c).setV x b) p := by
  have hflag : ((s.setFlag c).setV x b).getV 0xF#4 = flagByte c :=
    (State.getV_setV_other _ b hx.symm).trans (s.setFlag_getV_flag c)
  cases c with
  | true => exact .inl ⟨hc.mp rfl, hflag⟩
  | false => exact .inr ⟨fun hp => Bool.false_ne_true (hc.mpr hp), hflag⟩

end

/-- What register `r` reads as, a number, once the flag of Vp > Vq is written. -/
def State.readAfterCompare (s : State) (p q r : Nibble) : Nat :=
  if r = 0xF#4 then bit ((s.getV p).toNat > (s.getV q).toNat) else (s.getV r).toNat

section
variable (s : State) (p q : Nibble) {r : Nibble}

theorem State.readAfterCompare_flag :
    s.readAfterCompare p q 0xF#4 = bit ((s.getV p).toNat > (s.getV q).toNat) := if_pos rfl

theorem State.readAfterCompare_other (hr : r ≠ 0xF#4) : s.readAfterCompare p q r = (s.getV r).toNat := if_neg hr

theorem State.getV_after_compare_toNat (r : Nibble) :
    ((s.setFlag (strictlyGreater (s.getV p) (s.getV q))).getV r).toNat = s.readAfterCompare p q r := by
  by_cases hr : r = 0xF#4
  · rw [hr, State.setFlag_getV_flag, flagByte_strictlyGreater_toNat, State.readAfterCompare_flag]
  · rw [State.setFlag_getV_other _ _ hr, State.readAfterCompare_other _ _ _ hr]

end

/-- What 8XY5 and 8XY7 share: the flag of Vp > Vq, then Vx as the difference of the two registers the flag left. -/
def State.compareThenSub (s : State) (x p q : Nibble) : State :=
  let t := s.setFlag (strictlyGreater (s.getV p) (s.getV q))
  t.setV x (t.getV p - t.getV q)

section
variable (s : State) (x p q y : Nibble)

theorem exec_subReg : exec (.subReg x y) s = .next (s.compareThenSub x x y) := rfl

theorem exec_subn : exec (.subn x y) s = .next (s.compareThenSub x y x) := rfl

theorem frame_compareThenSub : Frame (fun l => l = .v x ∨ l = .v 0xF#4) s (s.compareThenSub x p q) :=
  frame_setFlag_setV s _ x _

theorem State.compareThenSub_flag (hx : x ≠ 0xF#4) :
    FlagSays (s.compareThenSub x p q) ((s.getV p).toNat > (s.getV q).toNat) :=
  flagSays_setFlag_setV s hx (strictlyGreater_iff _ _)

theorem State.compareThenSub_toNat : ((s.compareThenSub x p q).getV x).toNat =
    (s.readAfterCompare p q p + 256 - s.readAfterCompare p q q) % 256 := by
  rw [State.compareThenSub, State.getV_setV_self, byte_sub_toNat, s.getV_after_compare_toNat,
    s.getV_after_compare_toNat]

theorem State.compareThenSub_self : (s.compareThenSub x p p).getV x = 0x00#8 :=
  (State.getV_setV_self _ x _).trans (BitVec.sub_self _)

end

/-! ### The keypad instructions, case by case (R215 to R218) -/

section
variable {s : State}

theorem State.skipOnKey_of_key {k : Byte} (want : Bool) (hk : k.toNat < 16) :
    s.skipOnKey k want = s.skipIf (s.key[k.toNat] == want) := dif_pos hk

theorem State.skipOnKey_of_no_key {k : Byte} (want : Bool) (hk : ¬ k.toNat < 16) :
    s.skipOnKey k want = s.raise (.keyRange s.instrAddr s.opcode k) := dif_neg hk

theorem exec_ldVxK_of_none (x : Nibble) (h : s.lastKey = none) : exec (.ldVxK x) s = .next s.rewind := by
  rw [exec, execLdVxK, h]

theorem exec_ldVxK_of_some (x : Nibble) {k : Fin 16} (h : s.lastKey = some k) :
    exec (.ldVxK x) s = .next (s.setV x (BitVec.ofNat 8 k.val)) := by
  rw [exec, execLdVxK, h]

end

/-! ### `rnd` is read by CXNN alone (R163, D17) -/

/-- The state with another `rnd` input. -/
def State.withRnd (s : State) (b : Byte) : State := { s with rnd := b }

section
variable (s : State) (b : Byte)

theorem State.withRnd_skipIf (c : Bool) : (s.withRnd b).skipIf c = (s.skipIf c).withRnd b := by cases c <;> rfl

theorem State.withRnd_skipOnKey (k : Byte) (want : Bool) :
    (s.withRnd b).skipOnKey k want = (s.skipOnKey k want).withRnd b := by
  by_cases hk : k.toNat < 16
  · rw [State.skipOnKey_of_key want hk, State.skipOnKey_of_key want hk]
    exact s.withRnd_skipIf b _
  · rw [State.skipOnKey_of_no_key want hk, State.skipOnKey_of_no_key want hk]
    rfl

theorem State.withRnd_storeRegs (n : Nat) : (s.withRnd b).storeRegs n = (s.storeRegs n).withRnd b :=
  List.foldl_hom (State.withRnd · b) fun _ _ => rfl

theorem State.withRnd_loadRegs (n : Nat) : (s.withRnd b).loadRegs n = (s.loadRegs n).withRnd b :=
  List.foldl_hom (State.withRnd · b) fun _ _ => rfl

/-- An instruction other than CXNN does the same under any `rnd`, and carries that input along. -/
theorem exec_withRnd (i : Instr) (hi : ∀ x nn, i ≠ .rnd x nn) :
    ∃ t, exec i s = .next t ∧ exec i (s.withRnd b) = .next (t.withRnd b) := by
  cases i with
  | rnd x nn => exact absurd rfl (hi x nn)
  | ret =>
    by_cases hsp : s.sp.val = 0
    · exact ⟨_, exec_ret_of_empty hsp, exec_ret_of_empty (s := s.withRnd b) hsp⟩
    · exact ⟨_, exec_ret_of_pos hsp, exec_ret_of_pos (s := s.withRnd b) hsp⟩
  | call nnn =>
    by_cases hsp : s.sp.val < 16
    · exact ⟨_, exec_call_of_room nnn hsp, exec_call_of_room (s := s.withRnd b) nnn hsp⟩
    · exact ⟨_, exec_call_of_full nnn hsp, exec_call_of_full (s := s.withRnd b) nnn hsp⟩
  | ldVxK x =>
    cases hkey : s.lastKey with
    | none => exact ⟨_, exec_ldVxK_of_none x hkey, exec_ldVxK_of_none (s := s.withRnd b) x hkey⟩
    | some k => exact ⟨_, exec_ldVxK_of_some x hkey, exec_ldVxK_of_some (s := s.withRnd b) x hkey⟩
  | seImm | sneImm | seReg | sneReg => exact ⟨_, rfl, congrArg _ (s.withRnd_skipIf b _)⟩
  | skp | sknp => exact ⟨_, rfl, congrArg _ (s.withRnd_skipOnKey b _ _)⟩
  | ldMemVx => exact ⟨_, rfl, congrArg _ (s.withRnd_storeRegs b _)⟩
  | ldVxMem => exact ⟨_, rfl, congrArg _ (s.withRnd_loadRegs b _)⟩
  | _ => exact ⟨_, rfl, rfl⟩

end

/-! ### The obligations -/

/-- Settles O26: each writes Vx alone, with the operation on bits. -/
theorem copyAndLogic : Obligations.CopyAndLogic := by
  refine ⟨⟨decodesAs_of_mem (by simp [opcodeMap]), decodesAs_of_mem (by simp [opcodeMap]),
    decodesAs_of_mem (by simp [opcodeMap]), decodesAs_of_mem (by simp [opcodeMap])⟩, fun x y s =>
    ⟨⟨_, rfl, s.getV_setV_self x _, frame_setV s x _⟩, ⟨_, rfl, frame_setV s x _, fun k => ?_⟩,
      ⟨_, rfl, frame_setV s x _, fun k => ?_⟩, ⟨_, rfl, frame_setV s x _, fun k => ?_⟩⟩⟩
  · rw [State.getV_setV_self, BitVec.getLsbD_or]
  · rw [State.getV_setV_self, BitVec.getLsbD_and]
  · rw [State.getV_setV_self, BitVec.getLsbD_xor]

/-- Settles O27: the sum is taken before the flag is written, so it is the same for every X and Y. -/
theorem addWithCarry : Obligations.AddWithCarry := by
  refine ⟨decodesAs_of_mem (by simp [opcodeMap]), fun x y s =>
    ⟨_, rfl, ?_, fun hx => flagSays_setFlag_setV s hx (carryOut_iff _ _), frame_setFlag_setV s _ x _⟩⟩
  rw [State.getV_setV_self, BitVec.toNat_add]

/-- Settles O28: the difference of what Vx and Vy read as after the comparison, by which of them is VF. -/
theorem subtractWithFlag : Obligations.SubtractWithFlag := by
  refine ⟨decodesAs_of_mem (by simp [opcodeMap]), fun x y s => ⟨_, exec_subReg s x y, frame_compareThenSub s x x y,
    s.compareThenSub_flag x x y, fun hx hy => ?_, fun hx hy => ?_, fun hx hy => ?_, fun hx hy => ?_⟩⟩
  · rw [s.compareThenSub_toNat, s.readAfterCompare_other _ _ hx, s.readAfterCompare_other _ _ hy]
  · subst hy
    rw [s.compareThenSub_toNat, s.readAfterCompare_other _ _ hx, s.readAfterCompare_flag]
  · subst hx
    rw [s.compareThenSub_toNat, s.readAfterCompare_flag, s.readAfterCompare_other _ _ hy]
  · subst hx hy
    exact s.compareThenSub_self _ _

/-- Settles O30: the difference of what Vy and Vx read as after the comparison, by which of them is VF. -/
theorem reverseSubtractWithFlag : Obligations.ReverseSubtractWithFlag := by
  refine ⟨decodesAs_of_mem (by simp [opcodeMap]), fun x y s => ⟨_, exec_subn s x y, frame_compareThenSub s x y x,
    s.compareThenSub_flag x y x, fun hx hy => ?_, fun hx hy => ?_, fun hx hy => ?_, fun hx hy => ?_⟩⟩
  · rw [s.compareThenSub_toNat, s.readAfterCompare_other _ _ hy, s.readAfterCompare_other _ _ hx]
  · subst hy
    rw [s.compareThenSub_toNat, s.readAfterCompare_flag, s.readAfterCompare_other _ _ hx]
  · subst hx
    rw [s.compareThenSub_toNat, s.readAfterCompare_other _ _ hy, s.readAfterCompare_flag]
  · subst hx hy
    exact s.compareThenSub_self _ _

/-- Settles O29: Vx is shifted as the flag left it: itself when X is not F, and the flag byte when X = F. -/
theorem shiftRight : Obligations.ShiftRight := by
  refine ⟨decodesAs_of_mem (by simp [opcodeMap]), fun x y s => ⟨_, rfl, frame_setFlag_setV s _ x _,
    fun hx => ⟨?_, flagSays_setFlag_setV s hx (lowBit_iff _)⟩, fun hx => ?_, fun _ => rfl⟩⟩
  · rw [State.getV_setV_self, s.setFlag_getV_other _ hx, BitVec.toNat_ushiftRight, Nat.shiftRight_one]
  · subst hx
    rw [State.getV_setV_self, s.setFlag_getV_flag, flagByte_ushiftRight_one]

/-- Settles O31: Vx is shifted as the flag left it: itself when X is not F, and the flag byte when X = F. -/
theorem shiftLeft : Obligations.ShiftLeft := by
  refine ⟨decodesAs_of_mem (by simp [opcodeMap]), fun x y s => ⟨_, rfl, frame_setFlag_setV s _ x _,
    fun hx => ⟨?_, flagSays_setFlag_setV s hx (highBit_iff _)⟩, fun hx => ?_, fun _ => rfl⟩⟩
  · rw [State.getV_setV_self, s.setFlag_getV_other _ hx, BitVec.toNat_shiftLeft, Nat.shiftLeft_eq, pow_one]
  · subst hx
    rw [State.getV_setV_self, s.setFlag_getV_flag, flagByte_shiftLeft_one_toNat]
    simp only [highBit_iff]

/-- Settles O32: CXNN writes Vx alone, with the masked input; every other instruction carries `rnd` along unread. -/
theorem randomIsTheMaskedInput : Obligations.RandomIsTheMaskedInput := by
  refine ⟨decodesAs_of_mem (by simp [opcodeMap]), fun x nn s => ⟨_, rfl, frame_setV s x _, fun k => ?_⟩,
    fun i s b hi => exec_withRnd s b i hi⟩
  rw [State.getV_setV_self, BitVec.getLsbD_and]

/-- Settles O25: each writes Vx alone; the sum wraps at 256. -/
theorem loadAndAddImmediate : Obligations.LoadAndAddImmediate := by
  refine ⟨decodesAs_of_mem (by simp [opcodeMap]), decodesAs_of_mem (by simp [opcodeMap]), fun x nn s =>
    ⟨⟨_, rfl, s.getV_setV_self x nn, frame_setV s x nn⟩, ⟨_, rfl, ?_, frame_setV s x _⟩⟩⟩
  rw [State.getV_setV_self, BitVec.toNat_add]

end Sys2Proof.Machine

/-! PROOFS. The address register and memory (43_index_memory): the values written to I, the three digits FX33 stores,
the registers FX55 stores and FX65 loads, and then the obligations. -/

namespace Sys2Proof.Machine
open Sys2Proof.Claims

/-! ### The values written to I (R180 to R182) -/

theorem State.setI_toNat_of_lt (s : State) {w : Word} (hw : w.toNat < 0x1000) : (s.setI w).i.toNat = w.toNat :=
  (s.setI_toNat w).trans (Nat.mod_eq_of_lt hw)

theorem State.indexSum_toNat (s : State) (x : Nibble) :
    (s.indexSum x).toNat = (s.i.toNat + (s.getV x).toNat) % 4096 := by
  simp only [State.indexSum, BitVec.toNat_ofNat]
  omega

theorem fontAddress_full_toNat (b : Byte) : (fontAddress .full b).toNat = b.toNat * 5 := by
  simp only [fontAddress, BitVec.toNat_ofNat]
  omega

/-- `Vx & 0x0F` is Vx modulo 16. -/
theorem byte_and_lowNibble_toNat (b : Byte) : (b &&& 0x0F#8).toNat = b.toNat % 16 :=
  (BitVec.toNat_and ..).trans (Nat.and_two_pow_sub_one_eq_mod b.toNat 4)

theorem fontAddress_lowNibble_toNat (b : Byte) : (fontAddress .lowNibble b).toNat = b.toNat % 16 * 5 := by
  simp only [fontAddress, BitVec.toNat_ofNat, byte_and_lowNibble_toNat]
  omega

/-- A glyph address fits in twelve bits, so the write of I keeps it. -/
theorem fontAddress_toNat_lt (mode : Config.FontIndex) (b : Byte) : (fontAddress mode b).toNat < 0x1000 := by
  cases mode with
  | full => rw [fontAddress_full_toNat]; omega
  | lowNibble => rw [fontAddress_lowNibble_toNat]; omega

/-- For a digit the two values of `FONT_INDEX` agree. -/
theorem fontAddress_of_digit (mode : Config.FontIndex) {b : Byte} {d : Fin 16} (hd : b.toNat = d.val) :
    (fontAddress mode b).toNat = 5 * d.val := by
  cases mode with
  | full => rw [fontAddress_full_toNat]; omega
  | lowNibble => rw [fontAddress_lowNibble_toNat]; omega

theorem resetByte_glyph (p : Config.Params) (d : Fin 16) : resetByte p (5 * d.val) = p.fontGlyphs[d][0] := by
  have hlt : 5 * d.val < 80 := by omega
  rw [resetByte, dif_pos hlt]
  simp

/-- After `initialise()` memory holds the reset contents (R271). -/
theorem State.initialise_memRead (s : State) (a : Addr) : s.initialise.memRead a = resetByte s.params a.toNat := rfl

/-! ### The digits FX33 stores (R183) -/

section
variable (b : Byte)

theorem hundreds_toNat : (hundreds b).toNat = b.toNat / 100 := by
  simp only [hundreds, BitVec.toNat_ofNat]
  omega

theorem tens_toNat : (tens b).toNat = b.toNat / 10 % 10 := by
  simp only [tens, BitVec.toNat_ofNat]
  omega

theorem units_toNat : (units b).toNat = b.toNat % 10 := by
  simp only [units, BitVec.toNat_ofNat]
  omega

end

/-- The state FX33 leaves: the digits of `b` stored at I, I+1 and I+2, in this order. -/
def State.storeDigits (s : State) (b : Byte) : State :=
  ((s.memWrite (s.dataAddr 0) (hundreds b)).memWrite (s.dataAddr 1) (tens b)).memWrite (s.dataAddr 2) (units b)

section
variable (s : State) (b : Byte)

theorem exec_ldB (x : Nibble) : exec (.ldB x) s = .next (s.storeDigits (s.getV x)) := rfl

/-- No later write falls on I: the three addresses are distinct, across the wrap too. -/
theorem State.storeDigits_memRead_hundreds : (s.storeDigits b).memRead (s.dataAddr 0) = hundreds b := by
  simp [State.storeDigits, State.dataAddr_inj]

theorem State.storeDigits_memRead_tens : (s.storeDigits b).memRead (s.dataAddr 1) = tens b := by
  simp [State.storeDigits, State.dataAddr_inj]

theorem State.storeDigits_memRead_units : (s.storeDigits b).memRead (s.dataAddr 2) = units b := by
  simp [State.storeDigits]

theorem State.storeDigits_log : (s.storeDigits b).log = s.log ++ s.digitEntries b := by
  simp [State.storeDigits, State.digitEntries]

theorem frame_storeDigits :
    Frame (fun l => (∃ k < 3, l = .byte (s.dataAddr k)) ∨ l = .log) s (s.storeDigits b) := by
  have write (u : State) (v : Byte) {k : Nat} (hk : k < 3) :
      Frame (fun l => (∃ k < 3, l = .byte (s.dataAddr k)) ∨ l = .log) u (u.memWrite (s.dataAddr k) v) :=
    (frame_memWrite u _ v).of_pair (.inl ⟨k, hk, rfl⟩) (.inr rfl)
  exact ((write s _ (by decide)).trans (write _ _ (by decide))).trans (write _ _ (by decide))

end

/-! ### The walk over V0 to Vx (R184, R185) -/

section
variable (s : State) {x r : Nibble}

theorem nibble_count_le (x : Nibble) : x.toNat + 1 ≤ 16 := x.isLt

theorem State.storeRegs_memRead_upTo (hr : r.toNat ≤ x.toNat) :
    (s.storeRegs (x.toNat + 1)).memRead (s.dataAddr r.toNat) = s.getV r := by
  rw [s.storeRegs_memRead_at (nibble_count_le x) (Nat.lt_succ_of_le hr), regNumber_of_toNat]

theorem frame_storeRegs_upTo :
    Frame (fun l => (∃ r : Nibble, r.toNat ≤ x.toNat ∧ l = .byte (s.dataAddr r.toNat)) ∨ l = .log) s
      (s.storeRegs (x.toNat + 1)) := by
  refine (frame_storeRegs s _).mono fun l hl => hl.imp_left ?_
  rintro ⟨k, hk, rfl⟩
  have hnumber : (regNumber k).toNat = k := regNumber_toNat (hk.trans_le (nibble_count_le x))
  exact ⟨regNumber k, by omega, by rw [hnumber]⟩

theorem State.loadRegs_getV_upTo (hr : r.toNat ≤ x.toNat) :
    (s.loadRegs (x.toNat + 1)).getV r = s.memRead (s.dataAddr r.toNat) := by
  rw [s.loadRegs_getV (nibble_count_le x), if_pos (Nat.lt_succ_of_le hr)]

theorem frame_loadRegs_upTo :
    Frame (fun l => ∃ r : Nibble, r.toNat ≤ x.toNat ∧ l = .v r) s (s.loadRegs (x.toNat + 1)) :=
  (frame_loadRegs s (nibble_count_le x)).mono fun _ ⟨r, hr, e⟩ => ⟨r, Nat.le_of_lt_succ hr, e⟩

/-- Data addresses are made from I alone (R52). -/
theorem State.dataAddr_congr {t : State} (h : t.i = s.i) (k : Nat) : t.dataAddr k = s.dataAddr k := by
  rw [State.dataAddr, State.dataAddr, h]

end

/-! ### The obligations -/

/-- Settles O34: a glyph address fits in twelve bits, for a digit it is 5 times the digit under either `FONT_INDEX`, and
there the reset contents begin the glyph. -/
theorem fontAddressOfDigit : Obligations.FontAddressOfDigit := by
  refine ⟨decodesAs_of_mem (by simp [opcodeMap]), fun x s => ⟨_, rfl, frame_setI s _, ?_⟩⟩
  have hi := s.setI_toNat_of_lt (fontAddress_toNat_lt s.params.fontIndex (s.getV x))
  refine ⟨fun hfull => ?_, fun hlow => ?_, fun d hd => ?_⟩
  · rw [hi, hfull, fontAddress_full_toNat]
  · rw [hi, hlow, fontAddress_lowNibble_toNat]
  · have haddr := hi.trans (fontAddress_of_digit s.params.fontIndex hd)
    refine ⟨haddr, ?_⟩
    have hfits : 5 * d.val % 2 ^ 12 = 5 * d.val := Nat.mod_eq_of_lt (by omega)
    rw [State.initialise_memRead, BitVec.toNat_setWidth, haddr, hfits, resetByte_glyph]

/-- Settles O35: three writes at distinct addresses, each logged. -/
theorem storeDecimalDigits : Obligations.StoreDecimalDigits := by
  refine ⟨decodesAs_of_mem (by simp [opcodeMap]), fun x s => ⟨_, exec_ldB s x, ?_, ?_, ?_, ?_, frame_storeDigits s _⟩⟩
  · exact (congrArg BitVec.toNat (s.storeDigits_memRead_hundreds _)).trans (hundreds_toNat _)
  · exact (congrArg BitVec.toNat (s.storeDigits_memRead_tens _)).trans (tens_toNat _)
  · exact (congrArg BitVec.toNat (s.storeDigits_memRead_units _)).trans (units_toNat _)
  · rw [s.storeDigits_memRead_hundreds, s.storeDigits_memRead_tens, s.storeDigits_memRead_units]
    exact s.storeDigits_log _

/-- Settles O36: the block store of X+1 registers. -/
theorem storeRegisters : Obligations.StoreRegisters :=
  ⟨decodesAs_of_mem (by simp [opcodeMap]), fun _ s =>
    ⟨_, rfl, fun _ hr => s.storeRegs_memRead_upTo hr, s.storeRegs_log _, frame_storeRegs_upTo s⟩⟩

/-- Settles O37: the block load of X+1 registers. -/
theorem loadRegisters : Obligations.LoadRegisters :=
  ⟨decodesAs_of_mem (by simp [opcodeMap]), fun _ s =>
    ⟨_, rfl, fun _ hr => s.loadRegs_getV_upTo hr, frame_loadRegs_upTo s⟩⟩

/-- Settles O38: the store leaves I, so the load reads each register's byte where the store put it. -/
theorem loadAfterStoreRestoresRegisters : Obligations.LoadAfterStoreRestoresRegisters := by
  refine fun x s => ⟨_, rfl, fun u hi hkept => ⟨_, rfl, fun r hr => ?_⟩⟩
  have haddr : u.dataAddr r.toNat = s.dataAddr r.toNat :=
    (State.dataAddr_congr _ hi _).trans (s.storeRegs_dataAddr _ _)
  calc (u.loadRegs (x.toNat + 1)).getV r
      = u.memRead (u.dataAddr r.toNat) := u.loadRegs_getV_upTo hr
    _ = (s.storeRegs (x.toNat + 1)).memRead (u.dataAddr r.toNat) := hkept r hr
    _ = (s.storeRegs (x.toNat + 1)).memRead (s.dataAddr r.toNat) := by rw [haddr]
    _ = s.getV r := s.storeRegs_memRead_upTo hr

/-- Settles O33: both write I alone, with a value already below 4096. -/
theorem loadAndAddIndex : Obligations.LoadAndAddIndex := by
  refine ⟨decodesAs_of_mem (by simp [opcodeMap]), decodesAs_of_mem (by simp [opcodeMap]),
    fun nnn s => ⟨_, rfl, ?_, frame_setI s _⟩, fun x s => ⟨_, rfl, ?_, frame_setI s _⟩⟩
  · exact (s.setI_toNat_of_lt (zext16_toNat_lt nnn)).trans (zext16_toNat nnn)
  · rw [State.setI_toNat, State.indexSum_toNat, Nat.mod_mod]

end Sys2Proof.Machine

/-! PROOFS. The display (44_display): the loop of DXYN as one set of flipped pixels, where a sprite's bits lie on the
screen, and then the obligations. -/

namespace Sys2Proof.Machine
open Sys2Proof.Claims

/-! ### Flipping a set of pixels (R202) -/

/-- From canvas `c` to canvas `d` exactly the pixels of `P` are flipped, and a hit is added when one of them was on. -/
structure Canvas.Flips (P : Fin 64 → Fin 32 → Prop) (c d : Canvas) : Prop where
  flipped : ∀ x y, P x y → Screen.get d.pix x y = !Screen.get c.pix x y
  kept : ∀ x y, ¬ P x y → Screen.get d.pix x y = Screen.get c.pix x y
  hit_iff : d.hit = true ↔ c.hit = true ∨ ∃ x y, P x y ∧ Screen.get c.pix x y = true

section
variable {P Q : Fin 64 → Fin 32 → Prop} {c d e : Canvas}

theorem Canvas.Flips.congr (h : c.Flips P d) (hPQ : ∀ x y, P x y ↔ Q x y) : c.Flips Q d := by
  rwa [← show P = Q from funext₂ fun x y => propext (hPQ x y)]

theorem Canvas.Flips.none (hP : ∀ x y, ¬ P x y) (c : Canvas) : c.Flips P c where
  flipped x y h := absurd h (hP x y)
  kept _ _ _ := rfl
  hit_iff := ⟨.inl, fun h => h.resolve_right fun ⟨x, y, hxy, _⟩ => hP x y hxy⟩

theorem plot_flips (c : Canvas) (x : Fin 64) (y : Fin 32) : c.Flips (fun q r => q = x ∧ r = y) (plot c x y) where
  flipped q r h := (Screen.get_flip c.pix x q y r).trans (if_pos h)
  kept q r h := (Screen.get_flip c.pix x q y r).trans (if_neg h)
  hit_iff := by simp [plot]

/-- Disjoint sets flipped one after the other: the second finds its pixels as they were at first. -/
theorem Canvas.Flips.trans (h : c.Flips P d) (h' : d.Flips Q e) (hdisj : ∀ x y, Q x y → ¬ P x y) :
    c.Flips (fun x y => P x y ∨ Q x y) e where
  flipped x y hxy := by
    by_cases hQ : Q x y
    · rw [h'.flipped x y hQ, h.kept x y (hdisj x y hQ)]
    · rw [h'.kept x y hQ, h.flipped x y (hxy.resolve_right hQ)]
  kept x y hxy := (h'.kept x y fun hQ => hxy (.inr hQ)).trans (h.kept x y fun hP => hxy (.inl hP))
  hit_iff := by
    have hsecond : (∃ x y, Q x y ∧ Screen.get d.pix x y = true) ↔ ∃ x y, Q x y ∧ Screen.get c.pix x y = true :=
      exists₂_congr fun x y => and_congr_right fun hQ => by rw [h.kept x y (hdisj x y hQ)]
    rw [h'.hit_iff, h.hit_iff, hsecond]
    simp only [or_and_right, exists_or, or_assoc]

end

/-- A loop whose steps flip pairwise disjoint sets flips their union. -/
theorem foldl_range_flips {f : Canvas → Nat → Canvas} {P : Nat → Fin 64 → Fin 32 → Prop} {n : Nat}
    (hstep : ∀ c : Canvas, ∀ k < n, c.Flips (P k) (f c k)) (hdisj : ∀ j < n, ∀ k < n, ∀ x y, P j x y → P k x y → j = k)
    (c : Canvas) : c.Flips (fun x y => ∃ k < n, P k x y) ((List.range n).foldl f c) := by
  induction n with
  | zero => exact .none (by simp) c
  | succ n ih =>
    rw [List.range_succ, List.foldl_append]
    have hbefore := ih (fun c k hk => hstep c k (by omega)) (fun j hj k hk => hdisj j (by omega) k (by omega))
    have hnew : ∀ x y, P n x y → ¬ ∃ k < n, P k x y := fun x y hn ⟨k, hk, hP⟩ =>
      hk.ne (hdisj k (by omega) n (by omega) x y hP hn)
    exact (hbefore.trans (hstep _ n (by omega)) hnew).congr fun x y => Nat.exists_lt_succ_right.symm

/-! ### Where a sprite's bits lie (R202, R203) -/

/-- The columns from the sprite's corner, around the screen, are distinct: a pixel's distance says which it is. -/
theorem column_eq_iff_distance (x0 : Byte) {k : Nat} (hk : k < 64) (x : Fin 64) :
    column x0 k = x ↔ (x.val + 64 - x0.toNat % 64) % 64 = k := by
  rw [column_eq_iff]
  omega

theorem row_eq_iff_distance (y0 : Byte) {r : Nat} (hr : r < 32) (y : Fin 32) :
    row y0 r = y ↔ (y.val + 32 - y0.toNat % 32) % 32 = r := by
  rw [row_eq_iff]
  omega

/-- Pixel (x, y) lies under a set bit of the sprite row `b` drawn at column `x0` of row `y'`. -/
def rowBit (x0 : Byte) (y' : Fin 32) (b : Byte) (x : Fin 64) (y : Fin 32) : Prop :=
  ∃ k < 8, b.getLsbD (7 - k) = true ∧ x = column x0 k ∧ y = y'

theorem rowBit_iff (x0 : Byte) (y' : Fin 32) (b : Byte) (x : Fin 64) (y : Fin 32) :
    rowBit x0 y' b x y ↔ (x.val + 64 - x0.toNat % 64) % 64 < 8 ∧ y' = y ∧
      b.getLsbD (7 - (x.val + 64 - x0.toNat % 64) % 64) = true := by
  constructor
  · rintro ⟨k, hk, hbit, hx, hy⟩
    have hdist := (column_eq_iff_distance x0 (by omega) x).mp hx.symm
    exact ⟨hdist ▸ hk, hy.symm, hdist ▸ hbit⟩
  · rintro ⟨hk, hy, hbit⟩
    exact ⟨_, hk, hbit, ((column_eq_iff_distance x0 (by omega) x).mpr rfl).symm, hy.symm⟩

theorem drawRow_flips (x0 : Byte) (y : Fin 32) (b : Byte) (c : Canvas) :
    c.Flips (rowBit x0 y b) (drawRow x0 y b c) := by
  refine foldl_range_flips (fun c k _ => ?_) (fun j hj k hk q r hPj hPk => ?_) c
  · by_cases hbit : b.getLsbD (7 - k) = true
    · rw [if_pos hbit]
      exact (plot_flips c _ y).congr fun q r => (and_iff_right hbit).symm
    · rw [if_neg hbit]
      exact .none (fun q r h => hbit h.1) c
  · obtain ⟨-, hj', -⟩ := hPj
    obtain ⟨-, hk', -⟩ := hPk
    rw [← (column_eq_iff_distance x0 (by omega) q).mp hj'.symm, (column_eq_iff_distance x0 (by omega) q).mp hk'.symm]

section
variable (s : State) (x0 y0 : Byte) {n : Nat}

/-- A sprite's set bits are those of its rows, in a sprite no taller than the screen. -/
theorem spriteBit_iff_rowBit (hn : n ≤ 32) (x : Fin 64) (y : Fin 32) :
    spriteBit s x0 y0 n x y ↔ ∃ r < n, rowBit x0 (row y0 r) (s.memRead (s.dataAddr r)) x y := by
  simp only [rowBit_iff]
  constructor
  · rintro ⟨hk, hr, hbit⟩
    exact ⟨_, hr, hk, (row_eq_iff_distance y0 (by omega) y).mpr rfl, hbit⟩
  · rintro ⟨r, hr, hk, hy, hbit⟩
    have hdist := (row_eq_iff_distance y0 (by omega) y).mp hy
    exact ⟨hk, hdist ▸ hr, hdist ▸ hbit⟩

/-- The loop of R202 in closed form. -/
theorem State.drawSprite_flips (hn : n ≤ 32) :
    Canvas.Flips (spriteBit s x0 y0 n) { pix := s.pix, hit := false } (s.drawSprite x0 y0 n) := by
  refine (foldl_range_flips (fun c r _ => drawRow_flips x0 _ _ c) (fun i hi j hj x y hPi hPj => ?_) _).congr
    fun x y => (spriteBit_iff_rowBit s x0 y0 hn x y).symm
  obtain ⟨-, hi', -⟩ := (rowBit_iff ..).mp hPi
  obtain ⟨-, hj', -⟩ := (rowBit_iff ..).mp hPj
  rw [← (row_eq_iff_distance y0 (by omega) y).mp hi', (row_eq_iff_distance y0 (by omega) y).mp hj']

/-- Where a sprite's set bits lie depends on memory and I alone. -/
theorem spriteBit_congr {u : State} (hi : u.i = s.i) (hmem : ∀ a, u.memRead a = s.memRead a) (x : Fin 64) (y : Fin 32) :
    spriteBit u x0 y0 n x y ↔ spriteBit s x0 y0 n x y := by
  simp only [spriteBit, State.dataAddr_congr s hi, hmem]

end

/-! ### The state DXYN leaves (R202, R204) -/

/-- The collision flag read back as VF. -/
theorem flagSays_setFlag (s : State) {c : Bool} {p : Prop} (hc : c = true ↔ p) : FlagSays (s.setFlag c) p := by
  cases c with
  | true => exact .inl ⟨hc.mp rfl, s.setFlag_getV_flag true⟩
  | false => exact .inr ⟨fun hp => Bool.false_ne_true (hc.mpr hp), s.setFlag_getV_flag false⟩

/-- The state after a sprite of `n` rows is drawn at (x0, y0) and the collision is written to VF. -/
def State.afterSprite (s : State) (x0 y0 : Byte) (n : Nat) : State :=
  (s.setPix (s.drawSprite x0 y0 n).pix).setFlag (s.drawSprite x0 y0 n).hit

theorem exec_drw (x y n : Nibble) (s : State) :
    exec (.drw x y n) s = .next (s.afterSprite (s.getV x) (s.getV y) n.toNat) := rfl

section
variable (s : State) (x0 y0 : Byte) {n : Nat} (hn : n ≤ 32)
include hn

theorem State.afterSprite_flipped {x : Fin 64} {y : Fin 32} (h : spriteBit s x0 y0 n x y) :
    Screen.get (s.afterSprite x0 y0 n).pix x y = !Screen.get s.pix x y :=
  (s.drawSprite_flips x0 y0 hn).flipped x y h

theorem State.afterSprite_kept {x : Fin 64} {y : Fin 32} (h : ¬ spriteBit s x0 y0 n x y) :
    Screen.get (s.afterSprite x0 y0 n).pix x y = Screen.get s.pix x y :=
  (s.drawSprite_flips x0 y0 hn).kept x y h

theorem State.afterSprite_flag :
    FlagSays (s.afterSprite x0 y0 n) (∃ x y, spriteBit s x0 y0 n x y ∧ Screen.get s.pix x y = true) :=
  flagSays_setFlag _ (by simpa using (s.drawSprite_flips x0 y0 hn).hit_iff)

theorem frame_afterSprite :
    Frame (fun l => l = .v 0xF#4 ∨ ∃ x y, l = .pixel x y ∧ spriteBit s x0 y0 n x y) s (s.afterSprite x0 y0 n) := by
  refine ((frame_setPix s _).mono ?_).trans ((frame_setFlag _ _).of_single (.inl rfl))
  rintro _ ⟨x, y, rfl, hchanged⟩
  exact .inr ⟨x, y, rfl, not_not.mp fun h => hchanged (s.afterSprite_kept x0 y0 hn h)⟩

end

/-- A sprite has at most 15 rows, fewer than the screen. -/
theorem nibble_le_screenHeight (n : Nibble) : n.toNat ≤ 32 := by omega

/-! ### The obligations -/

/-- Settles O40: the loop flips one set of pixels, the rows and columns of a sprite being distinct around the screen. -/
theorem drawSpriteFlipsItsPixels : Obligations.DrawSpriteFlipsItsPixels :=
  ⟨decodesAs_of_mem (by simp [opcodeMap]), fun x y n s =>
    have hn := nibble_le_screenHeight n
    ⟨_, exec_drw x y n s, fun _ _ h => s.afterSprite_flipped _ _ hn h, s.afterSprite_flag _ _ hn,
      frame_afterSprite s _ _ hn⟩⟩

/-- Settles O41: both draws flip the same pixels, so the second undoes the first and hits what the first turned on. -/
theorem redrawRestoresTheDisplay : Obligations.RedrawRestoresTheDisplay := by
  intro x y n s t u w hfirst hpix hi hmem hx hy hsecond
  have hn := nibble_le_screenHeight n
  cases (exec_drw x y n s).symm.trans hfirst
  cases (exec_drw x y n u).symm.trans hsecond
  rw [hx, hy]
  have hbits := spriteBit_congr s (s.getV x) (s.getV y) (n := n.toNat) hi hmem
  have hflipped : ∀ px py, spriteBit s (s.getV x) (s.getV y) n.toNat px py →
      Screen.get u.pix px py = !Screen.get s.pix px py := fun px py h => hpix ▸ s.afterSprite_flipped _ _ hn h
  constructor
  · refine Screen.ext fun px py => ?_
    by_cases h : spriteBit s (s.getV x) (s.getV y) n.toNat px py
    · rw [u.afterSprite_flipped _ _ hn ((hbits px py).mpr h), hflipped px py h, Bool.not_not]
    · rw [u.afterSprite_kept _ _ hn (mt (hbits px py).mp h), hpix, s.afterSprite_kept _ _ hn h]
  · have hturnedOn : ∀ px py, spriteBit u (s.getV x) (s.getV y) n.toNat px py ∧ Screen.get u.pix px py = true ↔
        spriteBit s (s.getV x) (s.getV y) n.toNat px py ∧ Screen.get s.pix px py = false := fun px py =>
      (and_congr_left' (hbits px py)).trans (and_congr_right fun h => by rw [hflipped px py h, Bool.not_eq_true'])
    simpa only [hturnedOn] using u.afterSprite_flag (s.getV x) (s.getV y) hn

/-- Settles O39: the new screen is the blank one, and only pixels differ from the old. -/
theorem clearDisplay : Obligations.ClearDisplay :=
  ⟨decodesAs_of_mem (by simp [opcodeMap]), fun s =>
    ⟨_, rfl, Screen.get_blank, (frame_setPix s _).mono fun _ ⟨x, y, e, _⟩ => ⟨x, y, e⟩⟩⟩

end Sys2Proof.Machine

/-! PROOFS. The keypad (45_keypad): the two key tests on a number that names a key, the key byte and the move back of
FX0A, and then the obligations. -/

namespace Sys2Proof.Machine
open Sys2Proof.Claims

/-! ### Key tests, the rewind and the key byte (R215 to R218) -/

section
variable (s : State)

/-- SKP and SKNP on a number that names a key: skip exactly when that key's state is the one wanted (R215, R216). -/
theorem State.skipOnKey_pc_toNat {b : Byte} {k : Fin 16} (hb : b.toNat = k.val) (want : Bool) :
    (s.skipOnKey b want).pc.toNat = if s.key[k] = want then (s.pc.toNat + 2) % 65536 else s.pc.toNat := by
  have hlt : b.toNat < 16 := hb ▸ k.isLt
  obtain rfl : k = ⟨b.toNat, hlt⟩ := Fin.ext hb.symm
  rw [State.skipOnKey_of_key want hlt, State.skipIf_pc_toNat]
  simp

theorem frame_skipOnKey_of_key {b : Byte} (hb : b.toNat < 16) (want : Bool) :
    Frame (· = .pc) s (s.skipOnKey b want) := by
  rw [State.skipOnKey_of_key want hb]
  exact frame_skipIf s _

/-- A number above 0xF names no key (R218, D7). -/
theorem exec_skp_of_no_key {x : Nibble} (h : ¬ (s.getV x).toNat < 16) :
    exec (.skp x) s = .next (s.raise (.keyRange s.instrAddr s.opcode (s.getV x))) :=
  congrArg _ (State.skipOnKey_of_no_key true h)

theorem exec_sknp_of_no_key {x : Nibble} (h : ¬ (s.getV x).toNat < 16) :
    exec (.sknp x) s = .next (s.raise (.keyRange s.instrAddr s.opcode (s.getV x))) :=
  congrArg _ (State.skipOnKey_of_no_key false h)

/-- FX0A moves PC back by 2, which is forward by 65534 around the 16-bit PC (R217). -/
theorem State.rewind_pc_toNat : s.rewind.pc.toNat = (s.pc.toNat + 65534) % 65536 := by
  rw [State.rewind_pc, BitVec.toNat_sub, Nat.add_comm]
  rfl

end

/-- The byte FX0A stores is the number of the key (R217). -/
theorem keyByte_toNat (k : Fin 16) : (BitVec.ofNat 8 k.val).toNat = k.val := by
  rw [BitVec.toNat_ofNat]
  omega

/-! ### The obligations -/

/-- Settles O42: a number of a key makes both a conditional skip, on opposite states of that key; a number above 0xF
makes both the same diagnostic. -/
theorem skipOnKeyState : Obligations.SkipOnKeyState := by
  refine ⟨decodesAs_of_mem (by simp [opcodeMap]), decodesAs_of_mem (by simp [opcodeMap]), fun x s =>
    ⟨fun k hk => ?_, fun hrange => ?_⟩⟩
  · have hlt : (s.getV x).toNat < 16 := hk ▸ k.isLt
    refine ⟨⟨_, rfl, frame_skipOnKey_of_key s hlt true, s.skipOnKey_pc_toNat hk true⟩,
      ⟨_, rfl, frame_skipOnKey_of_key s hlt false, ?_⟩⟩
    rw [s.skipOnKey_pc_toNat hk false]
    cases s.key[k] <;> rfl
  · have hnoKey : ¬ (s.getV x).toNat < 16 := by omega
    exact ⟨_, exec_skp_of_no_key s hnoKey, exec_sknp_of_no_key s hnoKey, rfl, frame_raise s _⟩

/-- Settles O43: with a last key FX0A is a write of its number to Vx, and without one a rewind. -/
theorem waitForKey : Obligations.WaitForKey := by
  refine ⟨decodesAs_of_mem (by simp [opcodeMap]), fun x s => ⟨fun k hk => ?_, fun hnone => ?_⟩⟩
  · refine ⟨_, exec_ldVxK_of_some x hk, ?_, frame_setV s x _⟩
    rw [State.getV_setV_self, keyByte_toNat]
  · exact ⟨_, exec_ldVxK_of_none x hnone, s.rewind_pc_toNat, frame_rewind s⟩

end Sys2Proof.Machine

/-! PROOFS. The timers (46_timers): the countdown at 0, ST carried unread through every instruction but FX18, and then the
obligations. -/

namespace Sys2Proof.Machine
open Sys2Proof.Claims

/-! ### The countdown at 0 (60_exceptions R249, R252) -/

/-- A tick leaves an expired delay timer, and with it the whole state, as it was. -/
theorem State.tickDelayTimer_of_zero (s : State) (h : s.dt = 0x00#8) : s.tickDelayTimer = s := by
  rw [State.tickDelayTimer, h, countDown_zero, ← h]
  rfl

/-! ### ST is read by no instruction (10_state R33, D23)

Another ST before an instruction is written `State.setSt`, the model's own update of that field. -/

section
variable (s : State) (b : Byte)

theorem State.skipIf_setSt (c : Bool) : (s.setSt b).skipIf c = (s.skipIf c).setSt b := by cases c <;> rfl

theorem State.skipOnKey_setSt (k : Byte) (want : Bool) :
    (s.setSt b).skipOnKey k want = (s.skipOnKey k want).setSt b := by
  by_cases hk : k.toNat < 16
  · rw [State.skipOnKey_of_key want hk, State.skipOnKey_of_key want hk]
    exact s.skipIf_setSt b _
  · rw [State.skipOnKey_of_no_key want hk, State.skipOnKey_of_no_key want hk]
    rfl

theorem State.storeRegs_setSt (n : Nat) : (s.setSt b).storeRegs n = (s.storeRegs n).setSt b :=
  List.foldl_hom (State.setSt · b) fun _ _ => rfl

theorem State.loadRegs_setSt (n : Nat) : (s.setSt b).loadRegs n = (s.loadRegs n).setSt b :=
  List.foldl_hom (State.setSt · b) fun _ _ => rfl

/-- An instruction other than FX18 does the same under any ST, and carries that ST along. -/
theorem exec_setSt (i : Instr) (hi : ∀ x, i ≠ .ldSt x) :
    ∃ t, exec i s = .next t ∧ exec i (s.setSt b) = .next (t.setSt b) := by
  cases i with
  | ldSt x => exact absurd rfl (hi x)
  | ret =>
    by_cases hsp : s.sp.val = 0
    · exact ⟨_, exec_ret_of_empty hsp, exec_ret_of_empty (s := s.setSt b) hsp⟩
    · exact ⟨_, exec_ret_of_pos hsp, exec_ret_of_pos (s := s.setSt b) hsp⟩
  | call nnn =>
    by_cases hsp : s.sp.val < 16
    · exact ⟨_, exec_call_of_room nnn hsp, exec_call_of_room (s := s.setSt b) nnn hsp⟩
    · exact ⟨_, exec_call_of_full nnn hsp, exec_call_of_full (s := s.setSt b) nnn hsp⟩
  | ldVxK x =>
    cases hkey : s.lastKey with
    | none => exact ⟨_, exec_ldVxK_of_none x hkey, exec_ldVxK_of_none (s := s.setSt b) x hkey⟩
    | some k => exact ⟨_, exec_ldVxK_of_some x hkey, exec_ldVxK_of_some (s := s.setSt b) x hkey⟩
  | seImm | sneImm | seReg | sneReg => exact ⟨_, rfl, congrArg _ (s.skipIf_setSt b _)⟩
  | skp | sknp => exact ⟨_, rfl, congrArg _ (s.skipOnKey_setSt b _ _)⟩
  | ldMemVx => exact ⟨_, rfl, congrArg _ (s.storeRegs_setSt b _)⟩
  | ldVxMem => exact ⟨_, rfl, congrArg _ (s.loadRegs_setSt b _)⟩
  | _ => exact ⟨_, rfl, rfl⟩

/-- FX18 overwrites ST, so the one before it leaves no trace. -/
theorem exec_ldSt_setSt (x : Nibble) : exec (.ldSt x) (s.setSt b) = exec (.ldSt x) s := rfl

end

/-! ### The obligations -/

/-- Settles O45: FX18 writes ST alone, from Vx, over any ST; every other instruction carries ST along unread. -/
theorem soundTimerRegister : Obligations.SoundTimerRegister := by
  refine ⟨decodesAs_of_mem (by simp [opcodeMap]), fun x s => ⟨_, rfl, rfl, frame_setSt s _⟩, fun i s b => ?_⟩
  by_cases hi : ∃ x, i = .ldSt x
  · obtain ⟨x, rfl⟩ := hi
    exact ⟨_, rfl, _, exec_ldSt_setSt s b x, rfl⟩
  · obtain ⟨t, ht, ht'⟩ := exec_setSt s b i (not_exists.mp hi)
    exact ⟨t, ht, _, ht', rfl⟩

/-- Settles O44: FX07 writes Vx alone and FX15 writes DT alone; a DT set to 0 has expired. -/
theorem delayTimerRegister : Obligations.DelayTimerRegister :=
  ⟨decodesAs_of_mem (by simp [opcodeMap]), decodesAs_of_mem (by simp [opcodeMap]), fun x s =>
    ⟨⟨_, rfl, s.getV_setV_self x _, frame_setV s x _⟩,
      ⟨_, rfl, rfl, frame_setDt s _, (s.setDt _).tickDelayTimer_of_zero⟩⟩⟩

end Sys2Proof.Machine

/-! PROOFS. Diagnostics and ticks (60_exceptions): the state a cycle that raised a diagnostic leaves, the places a cycle
can write, what a tick is once the block is initialised, and then the obligations. -/

namespace Sys2Proof.Machine
open Sys2Proof.Claims

/-! ### A cycle that raised a diagnostic (R240, R241, R244) -/

/-- Beyond the fetch, a cycle that raised a diagnostic writes nothing but what it puts out. -/
theorem frame_cycle_raise (s : State) (held : Config.Keys) (rnd : Byte) (d : Diagnostic) :
    Frame (fun l => inputPlace l ∨ l = .opcode ∨ l = .pc ∨ l = .outputs) s
      ((s.sample held rnd).fetch.raise d).complete := by
  have houtputs : Frame (· = .outputs) (s.sample held rnd).fetch ((s.sample held rnd).fetch.raise d).complete :=
    (frame_raise _ d).trans (frame_complete _)
  exact ((frame_sample_fetch s held rnd).seq houtputs).mono fun _ => by simp only [or_assoc, imp_self]

/-- A diagnostic before CycleComplete was raised by the execution, which then did nothing else. -/
theorem RaisesAtMostOne.eq_raise {s u : State} (h : RaisesAtMostOne s u) {d : Diagnostic}
    (hout : u.complete.outputs = s.outputs ++ [.diagnostic d, .cycleComplete]) : ∃ d', u = s.raise d' := by
  obtain hnone | ⟨d', -, hu⟩ := h
  · have hlen := congrArg List.length hout
    simp [hnone] at hlen
  · exact ⟨d', hu⟩

/-! ### The places a cycle can write (R104, R249) -/

section
variable {s t : State} {held : Config.Keys} {rnd : Byte}

/-- Executing OPCODE writes what its instruction may write, and may put something out. -/
theorem State.execute_frame (h : s.execute = .next t) :
    Frame (fun l => (∃ i, decode s.opcode = .ok i ∧ mayWrite i l) ∨ l = .outputs) s t := by
  cases hd : decode s.opcode with
  | ok i =>
    have hexec : exec i s = .next t := (State.execute_of_decode_ok hd).symm.trans h
    exact (exec_frame hexec).mono fun _ hl => .inl ⟨i, rfl, hl⟩
  | error e =>
    cases (State.execute_of_decode_error hd).symm.trans h
    exact (frame_raise s _).of_single (.inr rfl)

/-- A cycle writes the inputs, OPCODE, PC and the outputs, and what the instruction at PC may write. -/
theorem State.cycle_frame (h : s.cycle held rnd = .next t) :
    Frame (fun l => (inputPlace l ∨ l = .opcode ∨ l = .pc) ∨
      (∃ i, decode s.fetchWord = .ok i ∧ mayWrite i l) ∨ l = .outputs) s t := by
  obtain ⟨-, rfl⟩ | ⟨-, -, u, hu, rfl⟩ := State.cycle_cases h
  · exact Frame.refl t
  · exact (frame_sample_fetch s held rnd).seq
      ((State.execute_frame hu).trans ((frame_complete u).of_single (.inr rfl)))

/-- A place the fetch, the inputs and the outputs leave alone moves only by an instruction that may write it. -/
theorem State.cycle_same {l : Loc} (h : s.cycle held rnd = .next t)
    (hfetch : ¬ (inputPlace l ∨ l = .opcode ∨ l = .pc)) (hout : l ≠ .outputs)
    (hword : ∀ i, decode s.fetchWord = .ok i → ¬ mayWrite i l) : Loc.same s t l := by
  refine State.cycle_frame h l ?_
  rintro (hl | ⟨i, hi, hl⟩ | hl)
  exacts [hfetch hl, hword i hi hl, hout hl]

theorem State.cycle_dt (h : s.cycle held rnd = .next t) (hword : ∀ x, decode s.fetchWord ≠ .ok (.ldDt x)) :
    t.dt = s.dt :=
  State.cycle_same (l := .dt) h (by simp [inputPlace]) nofun fun _ hi ⟨x, e⟩ => hword x (e ▸ hi)

theorem State.cycle_st (h : s.cycle held rnd = .next t) (hword : ∀ x, decode s.fetchWord ≠ .ok (.ldSt x)) :
    t.st = s.st :=
  State.cycle_same (l := .st) h (by simp [inputPlace]) nofun fun _ hi ⟨x, e⟩ => hword x (e ▸ hi)

end

/-! ### The obligations -/

/-- Settles O16: every instruction answers a next state, and raising a diagnostic writes the outputs alone. -/
theorem instructionsAreContained : Obligations.InstructionsAreContained := by
  intro i s
  obtain ⟨t, ht, -⟩ := exec_next_frame i s
  refine ⟨t, ht, ?_⟩
  obtain hnone | ⟨d, -, rfl⟩ := exec_raisesAtMostOne ht
  · exact .inl hnone
  · exact .inr ⟨d, rfl, frame_raise s d⟩

/-- Settles O15: the diagnostic put out is one the execution raised, so the state is the fetched one but for the
outputs. -/
theorem diagnosticsArePrecise : Obligations.DiagnosticsArePrecise := by
  intro s t held rnd d hready h hout
  obtain ⟨hnot, -⟩ | ⟨-, -, u, hu, rfl⟩ := State.cycle_cases h
  · exact absurd hready hnot
  have hraises : RaisesAtMostOne (s.sample held rnd).fetch u := of_exists_next hu (State.execute_next _)
  obtain ⟨d', rfl⟩ := hraises.eq_raise hout
  exact ⟨rfl, rfl, frame_cycle_raise s held rnd d'⟩

/-- Settles O46: a timer is written by its own setter alone among the instructions, and by its own tick. -/
theorem timersMoveOnlyByTicksAndSetters : Obligations.TimersMoveOnlyByTicksAndSetters :=
  ⟨fun _ _ _ _ h => ⟨State.cycle_dt h, State.cycle_st h⟩, fun s hinit =>
    ⟨⟨s.tickDelayTimer, if_neg hinit, countDown_toNat s.dt, frame_setDt s _⟩,
      ⟨s.tickSoundTimer, if_neg hinit, countDown_toNat s.st, frame_setSt s _⟩⟩⟩

end Sys2Proof.Machine

/-! PROOFS. Reset and hazards (70_reset_and_hazards): what memory holds after `initialise()`, the copy of a ROM and the
two outcomes of `load_rom`, the refusals before the first `initialise()`, and then the obligations. -/

namespace Sys2Proof.Machine
open Sys2Proof.Claims

/-! ### Memory after `initialise()` (R63, R271) -/

/-- Byte `k` of a glyph; `resetByte_glyph` is the first. -/
theorem resetByte_glyph_byte (p : Config.Params) (d : Fin 16) (k : Fin 5) :
    resetByte p (5 * d.val + k.val) = p.fontGlyphs[d][k] := by
  have hlt : 5 * d.val + k.val < 80 := by omega
  have hdigit : (5 * d.val + k.val) / 5 = d.val := by omega
  have hbyte : (5 * d.val + k.val) % 5 = k.val := by omega
  rw [resetByte, dif_pos hlt]
  simp [hdigit, hbyte]

theorem resetByte_above_font (p : Config.Params) {a : Nat} (ha : 80 ≤ a) : resetByte p a = 0x00#8 :=
  dif_neg (Nat.not_lt.mpr ha)

/-! ### Reads after a copy of bytes (R273) -/

section
variable {rst : Nat → Byte} {m : Memory} {a base : Nat} {bytes : List Byte}

theorem Memory.read_load_outside (h : a < base ∨ base + bytes.length ≤ a) :
    Memory.read rst (Memory.load rst m base bytes) a = Memory.read rst m a := by
  induction bytes generalizing m base with
  | nil => rfl
  | cons b rest ih =>
    rw [List.length_cons] at h
    have hne : a ≠ base := by omega
    rw [Memory.load, ih (by omega), Memory.read_write, if_neg hne]

/-- Each byte is read back where it was copied to: the copies after it go to higher addresses. -/
theorem Memory.read_load_at {j : Nat} (hj : j < bytes.length) :
    Memory.read rst (Memory.load rst m base bytes) (base + j) = bytes[j] := by
  induction bytes generalizing m base j with
  | nil => exact absurd hj (Nat.not_lt_zero j)
  | cons b rest ih =>
    rw [Memory.load]
    cases j with
    | zero =>
      have hkept := Memory.read_load_outside (rst := rst) (m := Memory.write rst m base b) (bytes := rest)
        (.inl (Nat.lt_succ_self base))
      exact hkept.trans (Memory.read_write.trans (if_pos rfl))
    | succ j =>
      have haddr : base + (j + 1) = base + 1 + j := by omega
      rw [haddr]
      exact ih (Nat.lt_of_succ_lt_succ hj)

end

/-! ### The two outcomes of `load_rom` (R273, R274, R275) -/

/-- The block with the bytes at 0x200 on, unlogged, and ready: what `load_rom` makes of an initialised one. -/
def State.copyRom (s : State) (bytes : List Byte) : State :=
  { s with mem := Memory.load (resetByte s.params) s.mem 0x200 bytes, life := .ready }

section
variable (s : State) {bytes : List Byte}

theorem State.loadRom_of_fits (name : String) (h : bytes.length ≤ 3584) :
    s.loadRom bytes name = ((s.initialise.copyRom bytes).emit (.romLoaded name)).emit (.loadResult .ok) :=
  if_neg (Nat.not_lt.mpr h)

theorem State.loadRom_of_too_large (name : String) (h : 3584 < bytes.length) :
    s.loadRom bytes name = s.initialise.emit (.loadResult (.romTooLarge bytes.length)) :=
  if_pos h

/-- The last byte of a ROM that fits is at 0xFFF at most, so no address of the copy wraps. -/
theorem State.copyRom_memRead_rom (h : bytes.length ≤ 3584) {j : Nat} (hj : j < bytes.length) :
    (s.copyRom bytes).memRead (BitVec.ofNat 12 (0x200 + j)) = bytes[j] := by
  have haddr : (BitVec.ofNat 12 (0x200 + j)).toNat = 0x200 + j := Nat.mod_eq_of_lt (by omega)
  rw [State.memRead, haddr]
  exact Memory.read_load_at hj

theorem State.copyRom_memRead_outside {a : Addr} (h : a.toNat < 0x200 ∨ 0x200 + bytes.length ≤ a.toNat) :
    (s.copyRom bytes).memRead a = s.memRead a :=
  Memory.read_load_outside h

theorem frame_copyRom (bytes : List Byte) :
    Frame (fun l => l = .life ∨ ∃ a, l = .byte a) s (s.copyRom bytes) := by
  intro l hl
  cases l with
  | life => exact absurd (.inl rfl) hl
  | byte a => exact absurd (.inr ⟨a, rfl⟩) hl
  | _ => rfl

theorem frame_loadRom_of_fits (name : String) (h : bytes.length ≤ 3584) :
    Frame (fun l => l = .life ∨ l = .outputs ∨ ∃ a, l = .byte a) s.initialise (s.loadRom bytes name) := by
  rw [s.loadRom_of_fits name h]
  refine ((frame_copyRom _ bytes).seq ((frame_emit _ _).trans (frame_emit _ _))).mono ?_
  rintro _ ((hlife | hbyte) | houtputs)
  exacts [.inl hlife, .inr (.inr hbyte), .inr (.inl houtputs)]

/-- Fitting or too long, a ROM leaves the block ready or initialised. -/
theorem State.loadRom_life_ne (bytes : List Byte) (name : String) : (s.loadRom bytes name).life ≠ .uninitialized := by
  rcases Nat.lt_or_ge 3584 bytes.length with h | h
  · rw [s.loadRom_of_too_large name h]
    nofun
  · rw [s.loadRom_of_fits name h]
    nofun

end

/-! ### Before the first `initialise()` (R270) -/

theorem State.needsInit_of_uninitialized {s : State} (h : s.life = .uninitialized) (op : HostOp) (t : State) :
    s.needsInit op t = .refused (.beforeInitialise op) :=
  if_pos h

/-! ### The obligations -/

/-- Settles O54: a ROM that fits is copied byte by byte and then two outputs are put out; the length is checked before
any byte is copied. -/
theorem loadRomOrRomTooLarge : Obligations.LoadRomOrRomTooLarge := by
  refine fun s bytes name => ⟨_, rfl, fun hfits => ?_, fun hlarge => ?_⟩
  · have hframe := frame_loadRom_of_fits s name hfits
    rw [s.loadRom_of_fits name hfits] at hframe ⊢
    exact ⟨rfl, List.append_assoc .., fun j hj => s.initialise.copyRom_memRead_rom hfits hj,
      fun a ha => s.initialise.copyRom_memRead_outside ha, hframe⟩
  · rw [s.loadRom_of_too_large name hlarge]
    exact ⟨rfl, frame_emit s.initialise _⟩

/-- Settles O53: every field is a constant of the reset state or carried over, and memory reads as the reset contents. -/
theorem initialiseGivesTheResetValues : Obligations.InitialiseGivesTheResetValues := by
  intro s
  have hglyph (d : Fin 16) (k : Fin 5) :
      s.initialise.memRead (BitVec.ofNat 12 (5 * d.val + k.val)) = s.params.fontGlyphs[d][k] := by
    have haddr : (BitVec.ofNat 12 (5 * d.val + k.val)).toNat = 5 * d.val + k.val := Nat.mod_eq_of_lt (by omega)
    rw [State.initialise_memRead, haddr, resetByte_glyph_byte]
  exact ⟨s.initialise, rfl, rfl, rfl, rfl, fun _ => Vector.getElem_replicate _, rfl, rfl,
    fun _ => Vector.getElem_replicate _, rfl, rfl, rfl, Screen.get_blank, fun _ => Vector.getElem_replicate _, rfl, rfl,
    hglyph, fun _ ha => resetByte_above_font s.params ha, rfl, rfl, rfl⟩

/-- Settles O55: the operations that need an initialised block are refused, a cycle has no ready block to run, and both
`initialise()` and `load_rom()` take any state. -/
theorem beforeInitialise : Obligations.BeforeInitialise := by
  intro s h
  have hrefused := State.needsInit_of_uninitialized h
  have hready : s.life ≠ .ready := by rw [h]; nofun
  exact ⟨hrefused .., hrefused .., hrefused .., fun _ => hrefused ..,
    fun held rnd => cycleIsANoOpUnlessReady s held rnd hready, ⟨_, rfl, rfl⟩,
    fun bytes name => ⟨_, rfl, s.loadRom_life_ne bytes name⟩⟩

end Sys2Proof.Machine
